-- ==== Sys2Proof/Word.lean ====
section
/-! DEFINITION. The word types of the block (00_scope.md R7, R8): every width the spec gives an
operand, a register or a response, under the name the spec uses for it. -/

namespace Sys2Proof

/-- One storage slot or one port register (R23, R40). -/
abbrev Byte := BitVec 8

/-- A command word (R70). -/
abbrev CommandWord := BitVec 64

/-- A response word (R78). -/
abbrev Response := BitVec 32

/-- A pin identifier (R7, R71). -/
abbrev PinId := BitVec 8

/-- A port identifier of the pin layer (R30). -/
abbrev PortId := BitVec 8

/-- A bit mask within one port of the pin layer (R31). -/
abbrev PortMask := BitVec 8

/-- A frequency in Hz (R7, R71). -/
abbrev Frequency := BitVec 16

/-- A duration in milliseconds (R7, R71). -/
abbrev Duration := BitVec 32

/-- A compare period or remainder in register units (R33, R34). -/
abbrev Period := BitVec 32

/-- The toggle countdown, read as two's complement (R35). -/
abbrev Countdown := BitVec 64

end Sys2Proof
end

