-- ==== Sys2Proof/Config.lean ====
section
/-! DEFINITION. What an implementation fixes (00_scope.md R7): the parameters of the block as plain
data, the values R7 gives as this hardware's, and the free values of the model, which have no body. -/

namespace Sys2Proof

/-- `END_CHECK` (R7, R166): the two readings of the handler's end check. -/
inductive EndCheck where
  | afterDecrement
  | elseBranch
  deriving DecidableEq, Repr

/-- One entry of `PIN_MAP` (R7): where the pin layer holds a pin. -/
structure PinLoc where
  port : PortId
  mask : PortMask
  deriving DecidableEq, Repr

/-- The configuration of R233 item 1, and the source literals that R2, R7 and 93 U10 make parameters too:
`CMP_WIDTH`, `MS_PER_S`, `EMPTY` (`emptyResponse`) and `UNBOUNDED` (`unbounded`). The defaults are this
hardware's values, -1 for the last two (R79, R35); R204 gives those two no domain, so any value of
their width is a configuration (log entry 7). `NUM_PINS` is the length of `pinMap`, so that the map is total
on exactly the pins there are. `PERIOD_FN` is the default formula of 92 D9 at every frequency that
`periodRows` does not list, and the first listed row's period at one it lists: every total function
from frequencies to 32-bit periods is such a list (log entry 6). -/
structure Config where
  cap : Nat := 16
  cmpWidth : Nat := 8
  reloadThreshold : Nat := 15
  numPorts : Nat
  pinMap : List PinLoc
  timerClkHz : Nat
  periodRows : List (Frequency × Period) := []
  msPerS : Nat := 1000
  emptyResponse : Response := 0xFFFFFFFF#32
  unbounded : Countdown := 0xFFFFFFFFFFFFFFFF#64
  endCheck : EndCheck := .afterDecrement
  hasOvfCounter : Bool := true
  deriving DecidableEq, Repr

/-- `CMP_MAX = 2^CMP_WIDTH - 1` (R7). -/
def Config.cmpMax (c : Config) : Nat := 2 ^ c.cmpWidth - 1

/-- `NUM_PINS` (R7). -/
def Config.numPins (c : Config) : Nat := c.pinMap.length

/-- The configuration of 95_test_vectors.md section 0, which `State.reset` carries. DESIGN CHOICE for
the parameters R7 leaves OPEN (log entry 4): 32 pins on 4 ports, pin p at port p div 8, bit p mod 8,
and a timer clock of 125000 Hz. The other parameters have the spec's defaults. -/
def Config.vectors : Config where
  numPorts := 4
  pinMap := (List.range 32).map fun p => ⟨BitVec.ofNat 8 (p / 8), BitVec.ofNat 8 (2 ^ (p % 8))⟩
  timerClkHz := 125000

/-- FREE VALUE (log entry 12): the response of RB_AVAILABLE when the available count has more than 32
bits, where R78's zero-extension to 32 bits states none. The argument is the count. -/
opaque Config.availTooWide : Nat → Response

/-- FREE VALUE (log entry 13): what `extRem` becomes when R165 subtracts `CMP_MAX` from a smaller
remainder, a number below zero that the unsigned register cannot hold. No reachable state subtracts
so (R168). The argument is the remainder before the subtraction. -/
opaque Config.extRemUnderflow : Period → Period

end Sys2Proof
end

