-- ==== Sys2Proof/Syntax.lean ====
section
/-! DEFINITION. The commands of the block, whole: one constructor of `Instr` for each row of
spec/opcode_table.json (30_encoding.md R74), their ports and formats, and the reasons for which a
command is refused (60_exceptions.md R201). -/

namespace Sys2Proof

/-- The three command ports (R6). -/
inductive Port where
  | rx
  | fg
  | tmr
  deriving DecidableEq, Repr

/-- The two execution contexts of R210. -/
inductive Context where
  | foreground
  | interrupt
  deriving DecidableEq, Repr

/-- The four formats of a command word (R72). -/
inductive Format where
  | n
  | d
  | p
  | t
  deriving DecidableEq, Repr

/-- The mnemonics of the opcode map, without operands (R74). -/
inductive Mnemonic where
  | rbStore
  | rbAvailable
  | rbPeek
  | rbRead
  | rbFlush
  | rbOvfcount
  | toneClaim
  | toneStart
  | toneStop
  | toneStatus
  | tmrTick
  | tmrMatch
  deriving DecidableEq, Repr

/-- The commands with their operands (R73, R74). -/
inductive Instr where
  /-- RB_STORE (R101) -/
  | rbStore (c : Byte)
  /-- RB_AVAILABLE (R102) -/
  | rbAvailable
  /-- RB_PEEK (R103) -/
  | rbPeek
  /-- RB_READ (R104) -/
  | rbRead
  /-- RB_FLUSH (R105) -/
  | rbFlush
  /-- RB_OVFCOUNT (R106) -/
  | rbOvfcount
  /-- TONE_CLAIM (R131) -/
  | toneClaim (pin : PinId)
  /-- TONE_START (R132) -/
  | toneStart (pin : PinId) (frequency : Frequency) (durationMillis : Duration)
  /-- TONE_STOP (R135) -/
  | toneStop (pin : PinId)
  /-- TONE_STATUS (R136) -/
  | toneStatus
  /-- TMR_TICK (R161) -/
  | tmrTick
  /-- TMR_MATCH (R167) -/
  | tmrMatch
  deriving DecidableEq, Repr

/-- Why a command is refused (R201). The first three are decided by decoding, the last two by the
command's own rule (R203). -/
inductive RefuseReason where
  /-- a reserved opcode (R75) -/
  | reservedOpcode
  /-- a defined opcode on a port other than its own (R77) -/
  | wrongPort
  /-- a must-be-zero bit is set (R76) -/
  | nonzeroReserved
  /-- `pin ≥ NUM_PINS` (R131, R132, R135) -/
  | pinOutOfRange
  /-- frequency 0 in a start whose claim would succeed (R132) -/
  | zeroFrequency
  deriving DecidableEq, Repr

/-- The code of a refusal reason (R201); the lower code has priority (R203). -/
def RefuseReason.code : RefuseReason → Nat
  | .reservedOpcode => 1
  | .wrongPort => 2
  | .nonzeroReserved => 3
  | .pinOutOfRange => 4
  | .zeroFrequency => 5

/-- A call of a pin-layer primitive (R41). -/
inductive PinCall where
  | configOutput (pin : PinId)
  | writeLow (pin : PinId)
  | toggle (port : PortId) (mask : PortMask)
  deriving DecidableEq, Repr

/-- What the environment does to the block: an agent issues a command word on its port (R6, R70), or
the reset input is asserted (R230). A reset brings along the bytes that storage holds after it, one
for each slot from slot 0: the spec leaves them unspecified and has a model take them as arbitrary
inputs (R23, 93 U1). -/
inductive Event where
  | command (port : Port) (word : CommandWord)
  | reset (contents : List Byte)
  deriving DecidableEq, Repr

end Sys2Proof
end

