-- ==== Sys2Proof/WellFormed.lean ====
section
/-! DEFINITION. Which commands a configuration gives a meaning. Operand widths are in the types of
`Instr`; what is left to check is the presence of the opcode (R75) and the operand domains that the
command rules check themselves (R73, R131, R132, R135). -/

namespace Sys2Proof

/-- The opcode is defined under this configuration: RB_OVFCOUNT needs the counter (R75, R106). -/
def Instr.present (cfg : Config) : Instr → Bool
  | .rbOvfcount => cfg.hasOvfCounter
  | .rbStore _ | .rbAvailable | .rbPeek | .rbRead | .rbFlush | .toneClaim _ | .toneStart _ _ _
  | .toneStop _ | .toneStatus | .tmrTick | .tmrMatch => true

/-- The pin operand names a pin of the board (R131, R132, R135). -/
def Instr.pinInRange (cfg : Config) : Instr → Bool
  | .toneClaim pin | .toneStart pin _ _ | .toneStop pin => decide (pin.toNat < cfg.numPins)
  | .rbStore _ | .rbAvailable | .rbPeek | .rbRead | .rbFlush | .rbOvfcount | .toneStatus
  | .tmrTick | .tmrMatch => true

/-- The frequency operand is in 1..65535 (R73). A start that loses the claim is defined at frequency
0 too (R132), so this is a check of the operand's domain and not of the encoding. -/
def Instr.frequencyInDomain : Instr → Bool
  | .toneStart _ f _ => decide (f ≠ 0#16)
  | .rbStore _ | .rbAvailable | .rbPeek | .rbRead | .rbFlush | .rbOvfcount | .toneClaim _
  | .toneStop _ | .toneStatus | .tmrTick | .tmrMatch => true

/-- What decoding needs: the encoding admits every operand value, so only presence counts (R75). -/
def Instr.wellFormed (cfg : Config) (i : Instr) : Bool := i.present cfg

/-- Well formed with every operand in its domain: such a command is never refused. -/
def Instr.inDomain (cfg : Config) (i : Instr) : Bool :=
  i.present cfg && i.pinInRange cfg && i.frequencyInDomain

end Sys2Proof
end

