-- ==== Sys2Proof/Decode.lean ====
section
/-! DEFINITION. Decoding and encoding of command words (30_encoding.md R70 to R77, R83), and the byte
order of words on a byte-wide link (20_memory.md R52). Decoding is total over every 64-bit word on
every port. -/

namespace Sys2Proof

/-! ### The fields of a command word (R71) -/

/-- `op = w[63:60]` (R71). -/
def fieldOp (w : CommandWord) : BitVec 4 := w.extractLsb' 60 4

/-- `pin = w[59:52]` (R71). -/
def fieldPin (w : CommandWord) : PinId := w.extractLsb' 52 8

/-- `rsv = w[51:48]` (R71). -/
def fieldRsv (w : CommandWord) : BitVec 4 := w.extractLsb' 48 4

/-- `freq = w[47:32]` (R71). -/
def fieldFreq (w : CommandWord) : Frequency := w.extractLsb' 32 16

/-- `dur = w[31:0]` (R71). -/
def fieldDur (w : CommandWord) : Duration := w.extractLsb' 0 32

/-- `data = w[7:0]` (R71). -/
def fieldData (w : CommandWord) : Byte := w.extractLsb' 0 8

/-! ### The opcode map (R74) -/

/-- The opcode of each mnemonic (R74). -/
def Mnemonic.opcode : Mnemonic → BitVec 4
  | .rbStore => 0x1#4
  | .rbAvailable => 0x2#4
  | .rbPeek => 0x3#4
  | .rbRead => 0x4#4
  | .rbFlush => 0x5#4
  | .rbOvfcount => 0x6#4
  | .toneClaim => 0x7#4
  | .toneStart => 0x8#4
  | .toneStop => 0x9#4
  | .toneStatus => 0xA#4
  | .tmrTick => 0xB#4
  | .tmrMatch => 0xC#4

/-- `FORMAT_OF` (R74). -/
def Mnemonic.format : Mnemonic → Format
  | .rbStore => .d
  | .rbAvailable => .n
  | .rbPeek => .n
  | .rbRead => .n
  | .rbFlush => .n
  | .rbOvfcount => .n
  | .toneClaim => .p
  | .toneStart => .t
  | .toneStop => .p
  | .toneStatus => .n
  | .tmrTick => .n
  | .tmrMatch => .n

/-- `PORT_OF` (R74, R77). -/
def Mnemonic.port : Mnemonic → Port
  | .rbStore => .rx
  | .rbAvailable => .fg
  | .rbPeek => .fg
  | .rbRead => .fg
  | .rbFlush => .fg
  | .rbOvfcount => .fg
  | .toneClaim => .fg
  | .toneStart => .fg
  | .toneStop => .fg
  | .toneStatus => .fg
  | .tmrTick => .tmr
  | .tmrMatch => .tmr

/-- `MNEMONIC_OF`: the mnemonic of an opcode, none for a reserved one. Opcode 0x6 is reserved when
the configuration has no overflow counter (R75). -/
def mnemonicOf (hasOvf : Bool) (op : BitVec 4) : Option Mnemonic :=
  match op.toNat with
  | 0x1 => some .rbStore
  | 0x2 => some .rbAvailable
  | 0x3 => some .rbPeek
  | 0x4 => some .rbRead
  | 0x5 => some .rbFlush
  | 0x6 => if hasOvf then some .rbOvfcount else none
  | 0x7 => some .toneClaim
  | 0x8 => some .toneStart
  | 0x9 => some .toneStop
  | 0xA => some .toneStatus
  | 0xB => some .tmrTick
  | 0xC => some .tmrMatch
  | _ => none

/-- The context a port stands for (R210). -/
def Port.context : Port → Context
  | .fg => .foreground
  | .rx | .tmr => .interrupt

/-- The mnemonic of a command. -/
def Instr.mnemonic : Instr → Mnemonic
  | .rbStore _ => .rbStore
  | .rbAvailable => .rbAvailable
  | .rbPeek => .rbPeek
  | .rbRead => .rbRead
  | .rbFlush => .rbFlush
  | .rbOvfcount => .rbOvfcount
  | .toneClaim _ => .toneClaim
  | .toneStart _ _ _ => .toneStart
  | .toneStop _ => .toneStop
  | .toneStatus => .toneStatus
  | .tmrTick => .tmrTick
  | .tmrMatch => .tmrMatch

/-- The port a command is bound to (R77). -/
def Instr.port (i : Instr) : Port := i.mnemonic.port

/-! ### Decoding (R83) -/

/-- Whether every must-be-zero bit of the format is zero in `w` (R76). -/
def reservedBitsZero (w : CommandWord) : Format → Bool
  | .n => w.extractLsb' 0 60 == 0#60
  | .d => w.extractLsb' 8 52 == 0#52
  | .p => w.extractLsb' 0 52 == 0#52
  | .t => fieldRsv w == 0#4

/-- The command a mnemonic spells with the operands of R73. -/
def Mnemonic.withOperands (m : Mnemonic) (c : Byte) (pin : PinId) (f : Frequency) (d : Duration) :
    Instr :=
  match m with
  | .rbStore => .rbStore c
  | .rbAvailable => .rbAvailable
  | .rbPeek => .rbPeek
  | .rbRead => .rbRead
  | .rbFlush => .rbFlush
  | .rbOvfcount => .rbOvfcount
  | .toneClaim => .toneClaim pin
  | .toneStart => .toneStart pin f d
  | .toneStop => .toneStop pin
  | .toneStatus => .toneStatus
  | .tmrTick => .tmrTick
  | .tmrMatch => .tmrMatch

/-- Decoding, with the refusal checks in the order of R83: reserved opcode, wrong port, a nonzero
must-be-zero bit. `hasOvf` is `HAS_OVF_COUNTER`. -/
def decode (hasOvf : Bool) (port : Port) (w : CommandWord) : Except RefuseReason Instr :=
  match mnemonicOf hasOvf (fieldOp w) with
  | none => .error .reservedOpcode
  | some m =>
    if port ≠ m.port then .error .wrongPort
    else if reservedBitsZero w m.format = false then .error .nonzeroReserved
    else .ok (m.withOperands (fieldData w) (fieldPin w) (fieldFreq w) (fieldDur w))

/-! ### Encoding (R72) -/

/-- Format N: `op`, then zeros (R72). -/
def formatN (op : BitVec 4) : CommandWord := op ++ 0#60

/-- Format D: `op`, zeros, `data` (R72). -/
def formatD (op : BitVec 4) (c : Byte) : CommandWord := op ++ 0#52 ++ c

/-- Format P: `op`, `pin`, zeros (R72). -/
def formatP (op : BitVec 4) (pin : PinId) : CommandWord := op ++ pin ++ 0#52

/-- Format T: `op`, `pin`, zeros, `freq`, `dur` (R72). -/
def formatT (op : BitVec 4) (pin : PinId) (f : Frequency) (d : Duration) : CommandWord :=
  op ++ pin ++ 0#4 ++ f ++ d

/-- The command word of a command (R72, R74). -/
def encode (i : Instr) : CommandWord :=
  match i with
  | .rbStore c => formatD i.mnemonic.opcode c
  | .toneClaim pin | .toneStop pin => formatP i.mnemonic.opcode pin
  | .toneStart pin f d => formatT i.mnemonic.opcode pin f d
  | .rbAvailable | .rbPeek | .rbRead | .rbFlush | .rbOvfcount | .toneStatus | .tmrTick
  | .tmrMatch => formatN i.mnemonic.opcode

/-! ### Words on a byte-wide link (R52) -/

/-- The low `n` bytes of a word, least significant byte first (R52). -/
def bytesOf {width : Nat} (w : BitVec width) (n : Nat) : List Byte :=
  (List.range n).map fun k => w.extractLsb' (8 * k) 8

/-- A command word as it travels over a byte-wide link (R52). -/
def commandBytes (w : CommandWord) : List Byte := bytesOf w 8

/-- A response word as it travels over a byte-wide link (R52). -/
def responseBytes (r : Response) : List Byte := bytesOf r 4

/-- The number that bytes spell, least significant byte first (R52). -/
def natOfBytes : List Byte → Nat
  | [] => 0
  | b :: rest => b.toNat + 256 * natOfBytes rest

/-- The first command word in the bytes that arrive over a byte-wide link, and the bytes after it;
none while fewer than eight have arrived (R52, R70). -/
def takeCommandWord (bytes : List Byte) : Option (CommandWord × List Byte) :=
  if bytes.length < 8 then none
  else some (BitVec.ofNat 64 (natOfBytes (bytes.take 8)), bytes.drop 8)

/-- Decoding from bytes: none while a word is incomplete. -/
def decodeBytes (hasOvf : Bool) (port : Port) (bytes : List Byte) :
    Option (Except RefuseReason Instr × List Byte) :=
  (takeCommandWord bytes).map fun (w, rest) => (decode hasOvf port w, rest)

/-! ### The host's question about a row of the opcode table -/

/-- The port a word's opcode belongs to; a reserved opcode has none, and FG stands for it, since R75
refuses the word on whichever port carries it. -/
def portOfWord (w : CommandWord) : Port :=
  match mnemonicOf true (fieldOp w) with
  | some m => m.port
  | none => .fg

/-- The word whose low `nbits` bits are those of `w` and whose other bits are zero. -/
def tableWord (nbits w : Nat) : CommandWord := BitVec.ofNat 64 (w % 2 ^ nbits)

/-- The command that the decoder reads from a word of the opcode table, laid out as bytes (R52) and
given to it on the port of its opcode, with the overflow counter present (log entry 18). -/
def decodeTableWord (nbits w : Nat) : Option Instr :=
  match decodeBytes true (portOfWord (tableWord nbits w)) (commandBytes (tableWord nbits w)) with
  | some (.ok i, _) => some i
  | _ => none

end Sys2Proof
end

