-- ==== Sys2Proof/Machine/State.lean ====
section
/-! DEFINITION. The state of the block (10_state.md), as plain data, the reasons a step stops, and the
state after reset (70_reset_and_hazards.md R230). -/

namespace Sys2Proof.Machine

/-- The storage space (R50): the slots whose byte differs from `unwrittenByte`, with their indices
strictly rising. -/
abbrev Memory := List Host.Cell

/-- What a slot that the list leaves out reads as. DESIGN CHOICE (log entry 2): R23 leaves the reset
contents of storage unspecified. -/
def unwrittenByte : Byte := 0x00#8

/-- The state of the block. The configuration is fixed: nothing writes it. -/
structure State where
  /-- the fixed configuration (R7, R233) -/
  cfg : Config
  /-- the byte slots of the ring buffer (R23) -/
  storage : Memory
  /-- index of the next slot to be written (R24) -/
  head : Nat
  /-- index of the next slot to be read (R25) -/
  tail : Nat
  /-- bytes dropped on overflow, saturating (R27) -/
  ovfCount : BitVec 32
  /-- a pin holds the claim (R28) -/
  claimValid : Bool
  /-- the pin that holds the claim, 0 when none does (R29) -/
  claimedPin : PinId
  /-- port of the pin resolved by the last successful start (R30) -/
  outPort : PortId
  /-- mask of that pin within its port (R31) -/
  outMask : PortMask
  /-- compare register, of `CMP_WIDTH` bits (R32) -/
  cmp : Nat
  /-- remainder of the current half-period still to be consumed in chunks (R33) -/
  extRem : Period
  /-- the originally computed period (R34) -/
  fullPeriod : Period
  /-- toggle countdown, two's complement (R35) -/
  tc : Countdown
  /-- compare-match interrupt enable (R36) -/
  cmpIE : Bool
  /-- free-running counter, of `CMP_WIDTH` bits (R37) -/
  tcnt : Nat
  /-- sticky mark: some command was refused since reset (R39) -/
  refused : Bool
  /-- output levels of the pin layer's ports (R40) -/
  portOut : List Byte
  /-- direction bits of the pin layer's ports (R40) -/
  portDir : List Byte
  /-- MODEL: the events still to come, in the order they are taken (log entry 1) -/
  inbox : List Event
  /-- MODEL: response word of the last command, if it gave one (R78; log entry 11) -/
  response : Option Response
  /-- MODEL: pin-layer calls of the last command (R11, R41; log entry 11) -/
  pinCalls : List PinCall
  /-- MODEL: why the last command was refused, if it was (R201; log entry 11) -/
  refusal : Option RefuseReason
  deriving DecidableEq, Repr

/-- Why a step stops with a fault. The block raises no exception (R200): a fault here is an access to
something that does not exist, which no state that meets the invariant of R44 makes (log entry 14). -/
inductive Fault where
  /-- a storage access outside `[0, CAP)` (R10, R50), raised by RB_STORE, RB_PEEK and RB_READ. Safe: the
  model stops where the spec gives no such slot. -/
  | slotOutOfRange (index : Nat)
  /-- a pin-layer access to a port that is not in `[0, NUM_PORTS)` (R40, R41), raised by TONE_START,
  TONE_STOP, TMR_TICK and TMR_MATCH. Safe: the model stops where the spec gives no such port. -/
  | noSuchPort (port : PortId)
  deriving DecidableEq, Repr

/-- Why there is no meaning. -/
inductive Refusal where
  /-- the command is refused (R201, R202), raised by the meanings of the TONE commands and RB_OVFCOUNT.
  `step` turns it into the state with the sticky mark. Safe: a marked run satisfies no claim about
  well-behaved runs. -/
  | command (reason : RefuseReason)
  /-- the configuration is refused (R204), raised by `step`. Safe: no run has meaning. -/
  | configuration
  /-- the instruction has no meaning in the model yet, raised by `exec` alone. Safe. -/
  | notModelled (mnemonic : String)
  deriving DecidableEq, Repr

/-- What a step or a meaning answers. -/
abbrev Result := Host.Outcome State Fault Refusal

/-- The state at power-up under a configuration, with the pin layer as its owner left it (R40, R230):
every register the block has is 0. -/
def State.powerUp (cfg : Config) (storage : Memory) (portOut portDir : List Byte) : State where
  cfg := cfg
  storage := storage
  head := 0
  tail := 0
  ovfCount := 0#32
  claimValid := false
  claimedPin := 0#8
  outPort := 0#8
  outMask := 0#8
  cmp := 0
  extRem := 0#32
  fullPeriod := 0#32
  tc := 0#64
  cmpIE := false
  tcnt := 0
  refused := false
  portOut := portOut
  portDir := portDir
  inbox := []
  response := none
  pinCalls := []
  refusal := none

/-- The machine right after reset (R230), under the configuration of 95_test_vectors.md section 0 (log
entry 4). DESIGN CHOICE: storage (log entry 2), portOut and portDir (log entry 3) hold zeros, where
the spec leaves them unspecified (R23, R40). -/
def State.reset : State :=
  State.powerUp Config.vectors [] (List.replicate Config.vectors.numPorts 0x00#8)
    (List.replicate Config.vectors.numPorts 0x00#8)

end Sys2Proof.Machine
end

