-- ==== Sys2Proof/Machine/Operands.lean ====
section
/-! DEFINITION. What the commands compute from their operands and the configuration: index arithmetic
(R24, R26, R100), pin resolution (R7), the compare period (92 D9), the countdown (R134), and the
checks of a configuration (R204). -/

namespace Sys2Proof.Machine

/-! ### Index arithmetic of the ring buffer -/

/-- `NextIdx(i) = (i + 1) mod CAP` (R100). -/
def nextIdx (cfg : Config) (i : Nat) : Nat := (i + 1) % cfg.cap

/-- `IDX_W = max(1, ceil(log2(CAP)))`, the width of `head` and `tail` (R24). -/
def idxWidth (cfg : Config) : Nat := max 1 (Nat.clog 2 cfg.cap)

/-- The available count `(CAP + head - tail) mod CAP` of given indices (R26), in the integers (R9). -/
def availOf (cfg : Config) (head tail : Nat) : Nat :=
  (((cfg.cap : Int) + head - tail) % (cfg.cap : Int)).toNat

/-- The available count (R26). -/
def State.avail (s : State) : Nat := availOf s.cfg s.head s.tail

/-- The buffer is empty (R26). -/
def State.isEmpty (s : State) : Bool := s.head == s.tail

/-- The buffer is full (R26). -/
def State.isFull (s : State) : Bool := nextIdx s.cfg s.head == s.tail

/-- The response of RB_AVAILABLE: the count, zero-extended to 32 bits (R78). A count of more than 32
bits, in a buffer of more than 2^32 slots, gives a free value (log entry 12). -/
def availResponse (n : Nat) : Response :=
  if n < 2 ^ 32 then BitVec.ofNat 32 n else Config.availTooWide n

/-! ### Pins -/

/-- `PIN_MAP(pin)`, none when `pin ≥ NUM_PINS` (R7). -/
def pinLoc (cfg : Config) (pin : PinId) : Option PinLoc := cfg.pinMap[pin.toNat]?

/-- `CanClaim(pin)` (R130). -/
def State.canClaim (s : State) (pin : PinId) : Bool := !s.claimValid || s.claimedPin == pin

/-! ### Period and countdown -/

/-- The suggested default of `PERIOD_FN` (92 D9), PRESUMED there from general knowledge (log entry 6):
`min(2^32 - 1, max(0, floor(TIMER_CLK_HZ / (2·f)) - 1))`. Subtraction of naturals stops at 0. -/
def defaultPeriod (clkHz : Nat) (f : Frequency) : Period :=
  BitVec.ofNat 32 (min (2 ^ 32 - 1) (clkHz / (2 * f.toNat) - 1))

/-- `PERIOD_FN(frequency)` (R7, R133). -/
def periodOf (cfg : Config) (f : Frequency) : Period :=
  (cfg.periodRows.lookup f).getD (defaultPeriod cfg.timerClkHz f)

/-- A period fits the compare register (92 D14). -/
def fitsCmp (cfg : Config) (p : Period) : Bool := decide (p.toNat ≤ cfg.cmpMax)

/-- `Countdown(f, d)` (R134), exact before it is stored in 64 bits. -/
def countdown (cfg : Config) (f : Frequency) (d : Duration) : Countdown :=
  if d.toNat > 0 then BitVec.ofNat 64 (2 * f.toNat * d.toNat / cfg.msPerS) else cfg.unbounded

/-! ### Checks of a configuration (R204) -/

/-- The mask has exactly one bit set (R7). -/
def oneHot (m : PortMask) : Bool := (List.range 8).countP (fun k => m.getLsbD k) == 1

/-- The entry of `PIN_MAP` names a port of the pin layer and one bit of it (R7, R204). -/
def PinLoc.ok (numPorts : Nat) (loc : PinLoc) : Bool :=
  decide (loc.port.toNat < numPorts) && oneHot loc.mask

/-- The configuration is in its domain (R7, R204). `PERIOD_FN` is total into 32 bits by its type.
`TIMER_CLK_HZ ≥ 1` stands in R7 and not in R204's list, and `CMP_WIDTH` and `MS_PER_S`, which the spec
gives no domain, must be at least 1 (log entry 9). -/
def configOk (cfg : Config) : Bool :=
  decide (1 ≤ cfg.cap)
    && (decide (1 ≤ cfg.reloadThreshold) && decide (cfg.reloadThreshold ≤ cfg.cmpMax + 1))
    && (decide (1 ≤ cfg.numPins) && decide (cfg.numPins ≤ 256))
    && (decide (1 ≤ cfg.numPorts) && decide (cfg.numPorts ≤ 256))
    && cfg.pinMap.all (PinLoc.ok cfg.numPorts)
    && (decide (1 ≤ cfg.timerClkHz) && decide (1 ≤ cfg.cmpWidth) && decide (1 ≤ cfg.msPerS))

end Sys2Proof.Machine
end

