-- ==== Sys2Proof/Machine/Flags.lean ====
section
/-! DEFINITION. The block has no flags or condition codes (R22). What stands in their place is the sign
of the countdown, which the handler and the status word test (R9, R35), and the status word of
TONE_STATUS (R80). -/

namespace Sys2Proof.Machine

/-- `tc > 0`, signed (R9). -/
def State.tcPositive (s : State) : Bool := decide (0 < s.tc.toInt)

/-- `tc < 0`, signed (R9). -/
def State.tcNegative (s : State) : Bool := decide (s.tc.toInt < 0)

/-- The status word (R80, R136): PIN in bits 15:8, then UNBOUNDED, FINITE, RUNNING and CLAIMED in bits
3 to 0, every other bit 0. -/
def State.statusWord (s : State) : Response :=
  0#16 ++ s.claimedPin ++ 0#4 ++ BitVec.ofBool s.tcNegative ++ BitVec.ofBool s.tcPositive
    ++ BitVec.ofBool s.cmpIE ++ BitVec.ofBool s.claimValid

end Sys2Proof.Machine
end

