-- ==== Sys2Proof/Machine/Ops.lean ====
section
/-! DEFINITION. The named operations over storage, registers and the pin layer, and the shared
procedures the commands are made of: the refusal of a command (R202), the compare-match entry and its
handler (R162 to R166), the claim attempt (R130), and reset (R230). -/

namespace Sys2Proof.Machine

/-! ### Storage (R50) -/

/-- The byte of a slot. -/
def Memory.read (m : Memory) (i : Nat) : Byte := (m.lookup i).getD unwrittenByte

/-- The slot's entry in front of a list of higher slots; none for `unwrittenByte`. -/
def Memory.cons (i : Nat) (v : Byte) (m : Memory) : Memory :=
  if v = unwrittenByte then m else (i, v) :: m

/-- Storing a byte in a slot, keeping the canonical form. -/
def Memory.write (m : Memory) (i : Nat) (v : Byte) : Memory :=
  match m with
  | [] => Memory.cons i v []
  | (j, w) :: rest =>
    if i < j then Memory.cons i v ((j, w) :: rest)
    else if i = j then Memory.cons i v rest
    else (j, w) :: Memory.write rest i v

/-- The slots from `i` on holding the given bytes. -/
def Memory.ofBytes (i : Nat) (bytes : List Byte) : Memory :=
  match bytes with
  | [] => []
  | v :: rest => Memory.cons i v (Memory.ofBytes (i + 1) rest)

/-- Every slot listed is at or above `low` and below `cap`, in strictly rising order, and none holds
what an unlisted slot reads as. -/
def Memory.wfFrom (low cap : Nat) (m : Memory) : Bool :=
  match m with
  | [] => true
  | (j, w) :: rest =>
    decide (low ≤ j) && decide (j < cap) && decide (w ≠ unwrittenByte)
      && Memory.wfFrom (j + 1) cap rest

/-- The canonical form of a storage of `cap` slots. -/
def Memory.wf (cap : Nat) (m : Memory) : Bool := Memory.wfFrom 0 cap m

/-! ### Updates of registers -/

/-- The start of a command's step: no response, no pin-layer call and no refusal yet (R11, R78). -/
def State.beginCommand (s : State) : State :=
  { s with response := none, pinCalls := [], refusal := none }

/-- `respond(v)` (R10, R78). -/
def State.respond (s : State) (v : Response) : State := { s with response := some v }

def State.setStorage (s : State) (m : Memory) : State := { s with storage := m }

def State.setHead (s : State) (i : Nat) : State := { s with head := i }

def State.setTail (s : State) (i : Nat) : State := { s with tail := i }

def State.setOvfCount (s : State) (n : BitVec 32) : State := { s with ovfCount := n }

def State.setClaim (s : State) (valid : Bool) (pin : PinId) : State :=
  { s with claimValid := valid, claimedPin := pin }

def State.setOut (s : State) (loc : PinLoc) : State :=
  { s with outPort := loc.port, outMask := loc.mask }

def State.setFullPeriod (s : State) (p : Period) : State := { s with fullPeriod := p }

def State.setChunk (s : State) (c : Nat) (r : Period) : State := { s with cmp := c, extRem := r }

def State.setExtRem (s : State) (r : Period) : State := { s with extRem := r }

def State.setTc (s : State) (n : Countdown) : State := { s with tc := n }

def State.setTcnt (s : State) (n : Nat) : State := { s with tcnt := n }

def State.setCmpIE (s : State) (b : Bool) : State := { s with cmpIE := b }

def State.setPortOut (s : State) (l : List Byte) : State := { s with portOut := l }

def State.setPortDir (s : State) (l : List Byte) : State := { s with portDir := l }

/-- A pin-layer call, in the order the command makes it (R12). -/
def State.logCall (s : State) (c : PinCall) : State := { s with pinCalls := s.pinCalls ++ [c] }

def State.setInbox (s : State) (l : List Event) : State := { s with inbox := l }

/-! ### Sequencing -/

/-- First one effect, then the next on the state it left (R12); a stop stays a stop. -/
def andThen (r : Result) (k : State → Result) : Result :=
  match r with
  | .next s => k s
  | .fault f => .fault f
  | .refused x => .refused x

/-- `refuse <Reason>` (R10, R201): the command has no meaning. -/
def refuse (reason : RefuseReason) : Result := .refused (.command reason)

/-- The effect of a refusal (R202): no block state is written, no pin-layer call is made, there is no
response, and the sticky mark is set. -/
def State.markRefused (s : State) (reason : RefuseReason) : State :=
  { s with refused := true, response := none, pinCalls := [], refusal := some reason }

/-- A refused command leaves the marked state and the run goes on (R202; 95 Program 5; log entry 8).
Every other outcome stands. -/
def settle (s : State) (r : Result) : Result :=
  match r with
  | .refused (.command reason) => .next (s.markRefused reason)
  | other => other

/-! ### Storage accesses of a command (R10, R54) -/

/-- `MemRead(i, 1)`, with what the command does with the byte. -/
def memRead (i : Nat) (s : State) (k : Byte → Result) : Result :=
  if i < s.cfg.cap then k (s.storage.read i) else .fault (.slotOutOfRange i)

/-- `MemWrite(i, 1, v)`. -/
def memWrite (i : Nat) (v : Byte) (s : State) : Result :=
  if i < s.cfg.cap then .next (s.setStorage (s.storage.write i v)) else .fault (.slotOutOfRange i)

/-- One more byte dropped, saturating, when the configuration has the counter (R27, R101). -/
def State.countOverflow (s : State) : State :=
  if s.cfg.hasOvfCounter && s.ovfCount != 0xFFFFFFFF#32 then s.setOvfCount (s.ovfCount + 1#32)
  else s

/-! ### The pin layer (R40, R41) -/

/-- `PinConfigOutput(pin)`, at the pin's place in the pin layer. -/
def pinConfigOutput (pin : PinId) (loc : PinLoc) (s : State) : Result :=
  if loc.port.toNat < s.portDir.length then
    .next ((s.setPortDir (s.portDir.modify loc.port.toNat (· ||| loc.mask))).logCall
      (.configOutput pin))
  else .fault (.noSuchPort loc.port)

/-- `PinWriteLow(pin)`, at the pin's place in the pin layer. -/
def pinWriteLow (pin : PinId) (loc : PinLoc) (s : State) : Result :=
  if loc.port.toNat < s.portOut.length then
    .next ((s.setPortOut (s.portOut.modify loc.port.toNat (· &&& ~~~loc.mask))).logCall
      (.writeLow pin))
  else .fault (.noSuchPort loc.port)

/-- `PinToggle(pt, m)`. -/
def pinToggle (pt : PortId) (m : PortMask) (s : State) : Result :=
  if pt.toNat < s.portOut.length then
    .next ((s.setPortOut (s.portOut.modify pt.toNat (· ^^^ m))).logCall (.toggle pt m))
  else .fault (.noSuchPort pt)

/-- The level of the pin at a place of the pin layer (R40). -/
def State.pinLevel (s : State) (loc : PinLoc) : Option Bool :=
  (s.portOut[loc.port.toNat]?).map fun b => b &&& loc.mask != 0#8

/-! ### The claim (R130) -/

/-- `ClaimAttempt(pin)`: whether it succeeded, and the state after it. -/
def claimAttempt (pin : PinId) (s : State) : Bool × State :=
  if s.canClaim pin then (true, s.setClaim true pin) else (false, s)

/-! ### The compare period (R133) -/

/-- `SetPeriod(P)`. -/
def setPeriod (p : Period) (s : State) : State :=
  if fitsCmp s.cfg p then (s.setFullPeriod p).setChunk p.toNat 0#32
  else (s.setFullPeriod p).setChunk s.cfg.cmpMax p

/-! ### The compare-match event: entry, handler, end check (R162 to R166, R208) -/

/-- The toggle and the decrement of R166. -/
def toggleAndCount (s : State) : Result :=
  andThen (pinToggle s.outPort s.outMask s) fun s =>
    .next (if s.tcPositive then s.setTc (s.tc - 1#64) else s)

/-- `EndCheck()` in the reading the configuration selects (R166). -/
def endCheck (s : State) : Result :=
  match s.cfg.endCheck with
  | .afterDecrement =>
    andThen (if s.tc ≠ 0#64 then toggleAndCount s else .next s) fun s =>
      .next (if s.tc = 0#64 then s.setCmpIE false else s)
  | .elseBranch => if s.tc ≠ 0#64 then toggleAndCount s else .next (s.setCmpIE false)

/-- The reload of R164: an extended period starts again as TONE_START starts it (92 D13). -/
def reload (s : State) : State :=
  if fitsCmp s.cfg s.fullPeriod then s else s.setChunk s.cfg.cmpMax s.fullPeriod

/-- `ToggleFiring()` (R164). -/
def toggleFiring (s : State) : Result := endCheck (reload s)

/-- `extRem - CMP_MAX` (R165). A remainder below `CMP_MAX`, which no reachable state subtracts from
(R168), gives a free value (log entry 13). -/
def lessChunk (cfg : Config) (r : Period) : Period :=
  if cfg.cmpMax ≤ r.toNat then r - BitVec.ofNat 32 cfg.cmpMax else Config.extRemUnderflow r

/-- The first statement of R165: an extended period consumes one register-sized chunk. -/
def consumeChunk (s : State) : State :=
  if fitsCmp s.cfg s.fullPeriod then s else s.setExtRem (lessChunk s.cfg s.extRem)

/-- The second statement of R165: a remainder that fits the register becomes the final chunk. -/
def loadFinalChunk (s : State) : State :=
  if fitsCmp s.cfg s.extRem then s.setChunk s.extRem.toNat 0#32 else s

/-- `BookkeepingFiring()` (R165). -/
def bookkeepingFiring (s : State) : State := loadFinalChunk (consumeChunk s)

/-- The remainder is below the reload threshold: the next firing is a toggle firing (R163). -/
def State.atThreshold (s : State) : Bool := decide (s.extRem.toNat < s.cfg.reloadThreshold)

/-- `Handler()` (R163). -/
def handler (s : State) : Result :=
  if s.atThreshold then toggleFiring s else .next (bookkeepingFiring s)

/-- `CompareMatch()` (R162): the counter restarts, and the handler runs when the interrupt is enabled.
Entry saves no state and there is nothing to restore on return (R208, R209). -/
def compareMatch (s : State) : Result :=
  if s.cmpIE then handler (s.setTcnt 0) else .next (s.setTcnt 0)

/-- `Tick()` (R160). The addition wraps, as the pseudocode has it; no reachable state wraps (R44 (f)). -/
def tick (s : State) : Result :=
  if s.tcnt = s.cmp then compareMatch s
  else .next (s.setTcnt ((s.tcnt + 1) % 2 ^ s.cfg.cmpWidth))

/-! ### Reset and the events of the environment -/

/-- Asserting the reset input (R230): every block register takes its reset value, storage holds the
bytes the event brings (R23, 93 U1), and the pin layer is not touched. The configuration stays and so
do the events still to come. -/
def State.assertReset (s : State) (contents : List Byte) : State :=
  { State.powerUp s.cfg (Memory.ofBytes 0 (contents.take s.cfg.cap)) s.portOut s.portDir with
    inbox := s.inbox }

/-- An event is issued after all those that already wait. -/
def State.issue (s : State) (e : Event) : State := s.setInbox (s.inbox ++ [e])

/-- An event is issued in front of all those that wait: the next step takes it. -/
def State.issueNext (s : State) (e : Event) : State := s.setInbox (e :: s.inbox)

end Sys2Proof.Machine
end

