-- ==== Sys2Proof/Machine/RingBuffer.lean ====
section
/-! DEFINITION. The ring-buffer controller's commands (40_ring_buffer.md). Each is one atomic step. -/

namespace Sys2Proof.Machine

/-- RB_STORE (R101): drop the byte when the buffer is full, else write it and then advance `head`. -/
def execRbStore (c : Byte) (s : State) : Result :=
  let s := s.beginCommand
  let next := nextIdx s.cfg s.head
  if next = s.tail then .next s.countOverflow
  else andThen (memWrite s.head c s) fun s => .next (s.setHead next)

/-- RB_AVAILABLE (R102). -/
def execRbAvailable (s : State) : Result :=
  .next (s.beginCommand.respond (availResponse s.avail))

/-- RB_PEEK (R103). -/
def execRbPeek (s : State) : Result :=
  let s := s.beginCommand
  if s.isEmpty then .next (s.respond s.cfg.emptyResponse)
  else memRead s.tail s fun v => .next (s.respond (v.setWidth 32))

/-- RB_READ (R104): read the byte, then advance `tail`. -/
def execRbRead (s : State) : Result :=
  let s := s.beginCommand
  if s.isEmpty then .next (s.respond s.cfg.emptyResponse)
  else memRead s.tail s fun v => .next ((s.setTail (nextIdx s.cfg s.tail)).respond (v.setWidth 32))

/-- RB_FLUSH (R105). -/
def execRbFlush (s : State) : Result :=
  let s := s.beginCommand
  .next ((s.setTail s.head).respond 0#32)

/-- RB_OVFCOUNT (R106), refused as a reserved opcode when there is no counter. -/
def execRbOvfcount (s : State) : Result :=
  if s.cfg.hasOvfCounter then .next (s.beginCommand.respond s.ovfCount) else refuse .reservedOpcode

end Sys2Proof.Machine
end

