-- ==== Sys2Proof/Machine/Timer.lean ====
section
/-! DEFINITION. The timer's commands (42_timer_handler.md). Neither gives a response (R78). -/

namespace Sys2Proof.Machine

/-- TMR_TICK (R161): one tick of the free-running counter. -/
def execTmrTick (s : State) : Result := tick s.beginCommand

/-- TMR_MATCH (R167): one compare-match event, delivered directly. -/
def execTmrMatch (s : State) : Result := compareMatch s.beginCommand

end Sys2Proof.Machine
end

