-- ==== Sys2Proof/Machine/Tone.lean ====
section
/-! DEFINITION. The tone generator's commands (41_tone_control.md). Each is one atomic step, so that no
handler runs between its writes (20_memory.md R61). -/

namespace Sys2Proof.Machine

/-- TONE_CLAIM (R131). -/
def execToneClaim (pin : PinId) (s : State) : Result :=
  match pinLoc s.cfg pin with
  | none => refuse .pinOutOfRange
  | some _ =>
    let (ok, s) := claimAttempt pin s.beginCommand
    .next (s.respond (if ok then 1#32 else 0#32))

/-- Steps 2 to 5 of TONE_START, after its claim succeeded (R132): resolve the pin, make it an output,
program the period and the countdown, restart the counter, and enable the interrupt last. -/
def startTone (pin : PinId) (loc : PinLoc) (f : Frequency) (d : Duration) (s : State) : Result :=
  andThen (pinConfigOutput pin loc (s.setOut loc)) fun s =>
    .next ((((setPeriod (periodOf s.cfg f) s).setTc (countdown s.cfg f d)).setTcnt 0).setCmpIE true)

/-- TONE_START (R132). -/
def execToneStart (pin : PinId) (frequency : Frequency) (durationMillis : Duration) (s : State) :
    Result :=
  match pinLoc s.cfg pin with
  | none => refuse .pinOutOfRange
  | some loc =>
    if s.canClaim pin && frequency == 0#16 then refuse .zeroFrequency
    else
      let (ok, s) := claimAttempt pin s.beginCommand
      if ok then
        andThen (startTone pin loc frequency durationMillis s) fun s => .next (s.respond 0#32)
      else .next (s.respond 0#32)

/-- The release of TONE_STOP, when the pin holds the claim (R135). -/
def releaseClaim (pin : PinId) (s : State) : State :=
  if s.claimValid && s.claimedPin == pin then (s.setCmpIE false).setClaim false 0#8 else s

/-- TONE_STOP (R135): the pin is driven low whether or not it holds the claim. -/
def execToneStop (pin : PinId) (s : State) : Result :=
  match pinLoc s.cfg pin with
  | none => refuse .pinOutOfRange
  | some loc =>
    andThen (pinWriteLow pin loc (releaseClaim pin s.beginCommand)) fun s =>
      .next (s.respond 0#32)

/-- TONE_STATUS (R136). -/
def execToneStatus (s : State) : Result :=
  .next (s.beginCommand.respond s.statusWord)

end Sys2Proof.Machine
end

