-- ==== Sys2Proof/Machine/Dispatch.lean ====
section
/-! DEFINITION. The meaning of every command, one arm each. -/

namespace Sys2Proof.Machine

def exec (i : Instr) (s : State) : Host.Outcome State Fault Refusal :=
  match i with
  | .rbStore c => Sys2Proof.Machine.execRbStore c s
  | .rbAvailable => Sys2Proof.Machine.execRbAvailable s
  | .rbPeek => Sys2Proof.Machine.execRbPeek s
  | .rbRead => Sys2Proof.Machine.execRbRead s
  | .rbFlush => Sys2Proof.Machine.execRbFlush s
  | .rbOvfcount => Sys2Proof.Machine.execRbOvfcount s
  | .toneClaim pin => Sys2Proof.Machine.execToneClaim pin s
  | .toneStart pin frequency durationMillis => Sys2Proof.Machine.execToneStart pin frequency durationMillis s
  | .toneStop pin => Sys2Proof.Machine.execToneStop pin s
  | .toneStatus => Sys2Proof.Machine.execToneStatus s
  | .tmrTick => Sys2Proof.Machine.execTmrTick s
  | .tmrMatch => Sys2Proof.Machine.execTmrMatch s

end Sys2Proof.Machine
end

