-- ==== Sys2Proof/Machine/Events.lean ====
section
/-! DEFINITION. Running one event of the environment: a command word that arrives on a port, or the
reset input. -/

namespace Sys2Proof.Machine

/-- A command word on a port: decoding refuses it, or its command runs; a refusal marks the state
(R83, R202). -/
def runCommand (port : Port) (w : CommandWord) (s : State) : Result :=
  match decode s.cfg.hasOvfCounter port w with
  | .error reason => .next (s.markRefused reason)
  | .ok i => settle s (exec i s)

/-- One event. -/
def runEvent (e : Event) (s : State) : Result :=
  match e with
  | .command port w => runCommand port w s
  | .reset contents => .next (s.assertReset contents)

end Sys2Proof.Machine
end

