-- ==== Sys2Proof/Machine/Step.lean ====
section
/-! DEFINITION. One step of the block: it takes the next event and runs it whole (20_memory.md R54,
R58). The block has no program counter and fetches no instructions (R21, R63): a command word arrives
on a port (log entry 1). -/

namespace Sys2Proof.Machine

/-- One step: nothing happens while no event waits, and under a refused configuration no run has
meaning (R204). -/
def step (s : State) : Host.Outcome State Fault Refusal :=
  if configOk s.cfg then
    match s.inbox with
    | [] => .next s
    | e :: rest => runEvent e (s.setInbox rest)
  else .refused .configuration

/-- `s` with the command word `w` issued on the port of its opcode, ahead of every event that waits,
so that the very next step runs it (log entry 18). -/
def State.withFetchWord (s : State) (nbits w : Nat) : State :=
  s.issueNext (.command (portOfWord (tableWord nbits w)) (tableWord nbits w))

end Sys2Proof.Machine
end

