-- ==== Sys2Proof/Machine/Assembler.lean ====
section
/-! DEFINITION. The assembler (30_encoding.md R81, R82): the written form of a program, its operand
checks, its pseudo-instructions, and the command words it stands for, each on the port its mnemonic
fixes. What R81 does not say about blanks, letter case, digit separators
and empty lines is in log entry 19. -/

namespace Sys2Proof.Machine

/-- The mnemonics of R81 and the source's API names of R82, which expand one to one. -/
def asmNames : List (String × Mnemonic) :=
  [("rb.store", .rbStore), ("rb.avail", .rbAvailable), ("rb.peek", .rbPeek), ("rb.read", .rbRead),
   ("rb.flush", .rbFlush), ("rb.ovf", .rbOvfcount), ("tone.claim", .toneClaim),
   ("tone.start", .toneStart), ("tone.stop", .toneStop), ("tone.status", .toneStatus),
   ("tmr.tick", .tmrTick), ("tmr.match", .tmrMatch),
   ("available", .rbAvailable), ("peek", .rbPeek), ("read", .rbRead), ("flush", .rbFlush),
   ("startTone", .toneStart), ("stopTone", .toneStop), ("storeByte", .rbStore)]

/-- The repeating pseudo-instructions of R82. -/
def asmRepeatNames : List (String × Mnemonic) :=
  [("tmr.ticks", .tmrTick), ("tmr.matches", .tmrMatch)]

/-- The command of a mnemonic with the operands written after it; none when their number is not that
of the format or one does not fit its field (R81). -/
def assembleCommand (m : Mnemonic) (operands : List Nat) : Option Instr :=
  match m.format, operands with
  | .n, [] => some (m.withOperands 0 0 0 0)
  | .d, [c] => if c ≤ 255 then some (m.withOperands (BitVec.ofNat 8 c) 0 0 0) else none
  | .p, [pin] => if pin ≤ 255 then some (m.withOperands 0 (BitVec.ofNat 8 pin) 0 0) else none
  | .t, [pin, freq, dur] =>
    if pin ≤ 255 ∧ freq ≤ 65535 ∧ dur ≤ 2 ^ 32 - 1 then
      some (m.withOperands 0 (BitVec.ofNat 8 pin) (BitVec.ofNat 16 freq) (BitVec.ofNat 32 dur))
    else none
  | _, _ => none

/-- One line of a program: a name and its operands. -/
structure AsmLine where
  name : String
  operands : List Nat
  deriving DecidableEq, Repr

/-- The commands of one line: one, or `N ≥ 1` equal ones for a repeating pseudo-instruction. -/
def assembleLine (l : AsmLine) : Option (List Instr) :=
  match asmNames.lookup l.name with
  | some m => (assembleCommand m l.operands).map fun i => [i]
  | none =>
    match asmRepeatNames.lookup l.name, l.operands with
    | some m, [n] => if 1 ≤ n then (assembleCommand m []).map (List.replicate n) else none
    | _, _ => none

/-- The commands of all lines, none when some line has none. -/
def assembleLines (ls : List AsmLine) : Option (List Instr) :=
  match ls with
  | [] => some []
  | l :: rest =>
    match assembleLine l, assembleLines rest with
    | some is, some more => some (is ++ more)
    | _, _ => none

/-- A command as its agent issues it: its word on the port its mnemonic fixes (R77, R81). -/
def commandEvent (i : Instr) : Event := .command i.port (encode i)

/-! ### The text of a program -/

def isBlank (c : Char) : Bool := c == ' ' || c == '\t' || c == '\r'

/-- The parts of a text between separators. -/
def splitAtChar (sep : Char) (cs : List Char) : List (List Char) :=
  match cs with
  | [] => [[]]
  | c :: rest =>
    match splitAtChar sep rest with
    | [] => [[c]]
    | part :: parts => if c = sep then [] :: part :: parts else (c :: part) :: parts

/-- A text without the blanks around it. -/
def trimBlanks (cs : List Char) : List Char :=
  ((cs.dropWhile isBlank).reverse.dropWhile isBlank).reverse

/-- The value of a digit in the given base. -/
def digitValue (base : Nat) (c : Char) : Option Nat :=
  let v :=
    if '0' ≤ c ∧ c ≤ '9' then some (c.toNat - '0'.toNat)
    else if 'a' ≤ c ∧ c ≤ 'f' then some (c.toNat - 'a'.toNat + 10)
    else if 'A' ≤ c ∧ c ≤ 'F' then some (c.toNat - 'A'.toNat + 10)
    else none
  v.filter (· < base)

/-- The number that digits spell after the number `acc`. -/
def digitsValue (base acc : Nat) (cs : List Char) : Option Nat :=
  match cs with
  | [] => some acc
  | c :: rest =>
    match digitValue base c with
    | some v => digitsValue base (base * acc + v) rest
    | none => none

/-- An integer: decimal, or hexadecimal after `0x` (R81). DESIGN CHOICE (log entry 19): `_` stands
anywhere among hexadecimal digits and is skipped, as the digit separator of R8, which 95 TC7 writes in a
program; R81 does not say whether a program may hold it. A decimal integer holds none. -/
def parseInteger (cs : List Char) : Option Nat :=
  match cs with
  | [] => none
  | '0' :: 'x' :: rest =>
    let digits := rest.filter (· != '_')
    if digits.isEmpty then none else digitsValue 16 0 digits
  | digits => digitsValue 10 0 digits

/-- The operands of a line, separated by commas; a line without any has no text there. -/
def parseOperands (cs : List Char) : Option (List Nat) :=
  if (trimBlanks cs).isEmpty then some []
  else ((splitAtChar ',' cs).map fun part => parseInteger (trimBlanks part)).mapM id

/-- A line of text without its comment, which `;` starts; `some none` for a line that holds no
command. -/
def parseLine (cs : List Char) : Option (Option AsmLine) :=
  let code := trimBlanks (cs.takeWhile (· != ';'))
  if code.isEmpty then some none
  else
    (parseOperands (code.dropWhile fun c => !isBlank c)).map fun ops =>
      some { name := String.ofList (code.takeWhile fun c => !isBlank c), operands := ops }

/-- The lines of a program's text that hold a command. -/
def parseProgram (cs : List Char) : Option (List AsmLine) :=
  (((splitAtChar '\n' cs).map parseLine).mapM id).map fun ls => ls.filterMap id

/-- The events a program's text stands for, in order (R81, R82). -/
def assemble (text : String) : Option (List Event) :=
  match parseProgram text.toList with
  | some ls => (assembleLines ls).map fun is => is.map commandEvent
  | none => none

end Sys2Proof.Machine
end

