-- ==== Sys2Proof/Machine/Software.lean ====
section
/-! DEFINITION. The foreground operations of the source's software, as R66 describes them: sequences of
sub-steps, in the orders of R236, with receive interrupts between them. This is not the block, whose
commands are atomic (R54); it is what R66 compares the block with, and statements use it for that
comparison alone. A window is the list of bytes that receive events store between two sub-steps. -/

namespace Sys2Proof.Machine

/-- The receive events of a window, each one RB_STORE (R205, R236 (g)). -/
def storeAll (window : List Byte) (s : State) : Result :=
  match window with
  | [] => .next s
  | c :: rest => andThen (execRbStore c s) (storeAll rest)

/-- `available`: read `head` once, then `tail` (R66, R236 (b)). -/
def softAvailable (window : List Byte) (s : State) : Result :=
  andThen (storeAll window s) fun u =>
    .next (u.beginCommand.respond (availResponse (availOf u.cfg s.head u.tail)))

/-- `peek`: the empty test, then the read of the byte (R66). -/
def softPeek (window : List Byte) (s : State) : Result :=
  andThen (storeAll window s) fun u =>
    let u := u.beginCommand
    if s.isEmpty then .next (u.respond u.cfg.emptyResponse)
    else memRead u.tail u fun v => .next (u.respond (v.setWidth 32))

/-- `read`: the empty test, the read of the byte, then the advance of `tail` (R66, R236 (d)). -/
def softRead (window window' : List Byte) (s : State) : Result :=
  andThen (storeAll window s) fun u =>
    if s.isEmpty then
      andThen (storeAll window' u) fun w => .next (w.beginCommand.respond w.cfg.emptyResponse)
    else
      memRead u.tail u fun v =>
        andThen (storeAll window' u) fun w =>
          .next ((w.beginCommand.setTail (nextIdx w.cfg w.tail)).respond (v.setWidth 32))

/-- `flush`: read `head` once, then store it into `tail` (R66, R236 (c)). -/
def softFlush (window : List Byte) (s : State) : Result :=
  andThen (storeAll window s) fun u =>
    .next ((u.beginCommand.setTail s.head).respond 0#32)

end Sys2Proof.Machine
end

