-- ==== Sys2Proof/Safety.lean ====
section
/-! DEFINITION. The terms in which statements about the block are made: the legal values and the
invariant of 10_state.md R42 and R44, the buffered bytes (R60), the FSM of R140, half-periods and
toggle firings (R163 to R171), and what a well-behaved run is (R202). -/

namespace Sys2Proof.Machine

/-! ### Well-behaved runs -/

/-- No command of the run so far was refused (R39, R202). -/
def State.wellBehaved (s : State) : Bool := !s.refused

/-- The state but for the outputs of the last command, which are the model's own fields (log entry
11): two states with the same quiet state differ in nothing the block holds. -/
def State.quiet (s : State) : State := s.beginCommand

/-- An outcome but for the outputs of the last command. -/
def quietResult (r : Result) : Result := andThen r fun s => .next s.quiet

/-- The bits that a format must leave zero (R76). -/
def mustBeZero (f : Format) (k : Nat) : Prop :=
  match f with
  | .n => k ≤ 59
  | .d => 8 ≤ k ∧ k ≤ 59
  | .p => k ≤ 51
  | .t => 48 ≤ k ∧ k ≤ 51

/-- A cause of R201 applies to the word `w` on a port in this state, whatever other causes do. A
reserved opcode has no port, no format and no operands. -/
def State.causeApplies (s : State) (port : Port) (w : CommandWord) (r : RefuseReason) : Prop :=
  match mnemonicOf s.cfg.hasOvfCounter (fieldOp w), r with
  | none, .reservedOpcode => True
  | none, _ => False
  | some _, .reservedOpcode => False
  | some m, .wrongPort => port ≠ m.port
  | some m, .nonzeroReserved => reservedBitsZero w m.format = false
  | some m, .pinOutOfRange =>
    (m = .toneClaim ∨ m = .toneStart ∨ m = .toneStop) ∧ s.cfg.numPins ≤ (fieldPin w).toNat
  | some m, .zeroFrequency =>
    m = .toneStart ∧ fieldFreq w = 0#16 ∧ s.canClaim (fieldPin w) = true

/-! ### The invariant -/

/-- The invariant of every reachable state: the configuration is in its domain (R204), every register
has a legal value (R42), and (a), (d), (e), (f), (g) and (h) of R44 hold. (h) has the parameter
`UNBOUNDED` for -1 (log entry 7). (b) follows from (a); (c) is stated of two states, by `SameButUnread`;
(i) says that a further property does not hold. -/
structure State.Inv (s : State) : Prop where
  config_ok : configOk s.cfg = true
  storage_wf : Memory.wf s.cfg.cap s.storage = true
  head_lt : s.head < s.cfg.cap
  tail_lt : s.tail < s.cfg.cap
  ovfCount_absent : s.cfg.hasOvfCounter = false → s.ovfCount = 0#32
  portOut_length : s.portOut.length = s.cfg.numPorts
  portDir_length : s.portDir.length = s.cfg.numPorts
  claimedPin_lt : s.claimedPin.toNat < s.cfg.numPins
  claimedPin_free : s.claimValid = false → s.claimedPin = 0#8
  outPort_lt : s.outPort.toNat < s.cfg.numPorts
  outMask_legal : s.outMask = 0#8 ∨ oneHot s.outMask = true
  running_claimed : s.cmpIE = true → s.claimValid = true
  running_resolved : s.cmpIE = true → pinLoc s.cfg s.claimedPin = some ⟨s.outPort, s.outMask⟩
  cmp_le : s.cmp ≤ s.cfg.cmpMax
  tcnt_le : s.tcnt ≤ s.cmp
  extRem_legal : s.extRem = 0#32 ∨
    (s.cfg.cmpMax < s.extRem.toNat ∧ s.extRem.toNat ≤ s.fullPeriod.toNat)
  tc_legal : 0 ≤ s.tc.toInt ∨ s.tc = s.cfg.unbounded

/-- The compare register holds the chunk of the current half-period that R169 says: the whole of a
period that fits, `CMP_MAX` while a remainder is left, and the exact rest as the final chunk. -/
structure State.ChunkInv (s : State) : Prop where
  cmp_fits : fitsCmp s.cfg s.fullPeriod = true → s.cmp = s.fullPeriod.toNat
  cmp_chunk : s.extRem ≠ 0#32 → s.cmp = s.cfg.cmpMax
  extRem_multiple : s.extRem ≠ 0#32 → s.cfg.cmpMax ∣ s.fullPeriod.toNat - s.extRem.toNat
  final_positive : fitsCmp s.cfg s.fullPeriod = false → 1 ≤ s.cmp
  final_multiple : s.extRem = 0#32 → s.cmp ≤ s.fullPeriod.toNat ∧
    s.cfg.cmpMax ∣ s.fullPeriod.toNat - s.cmp

/-! ### The ring buffer as a queue -/

/-- The slot of the k-th unread byte (R60). -/
def State.slotOf (s : State) (k : Nat) : Nat := (s.tail + k) % s.cfg.cap

/-- The unread bytes, oldest first (R60). -/
def State.buffered (s : State) : List Byte :=
  (List.range s.avail).map fun k => s.storage.read (s.slotOf k)

/-- Two states differ at most in slots of storage that hold no unread byte (R44 (c)). -/
def SameButUnread (s t : State) : Prop :=
  t = { s with storage := t.storage } ∧
    ∀ k, k < s.avail → t.storage.read (s.slotOf k) = s.storage.read (s.slotOf k)

/-! ### The claim/release FSM (R140) -/

inductive ToneFsm where
  | free
  | held (p : PinId)
  | runFinite (p : PinId)
  | runLast (p : PinId)
  | runUnbounded (p : PinId)
  deriving DecidableEq, Repr

/-- The running state of R140 for the sign of a countdown. -/
def ToneFsm.running (p : PinId) (tc : Countdown) : ToneFsm :=
  if 0 < tc.toInt then .runFinite p else if tc.toInt < 0 then .runUnbounded p else .runLast p

/-- The FSM state, none for the combination that R140 calls unreachable. -/
def State.toneFsm (s : State) : Option ToneFsm :=
  match s.claimValid, s.cmpIE with
  | false, false => some .free
  | true, false => some (.held s.claimedPin)
  | true, true => some (ToneFsm.running s.claimedPin s.tc)
  | false, true => none

/-! ### Firings, toggles, half-periods (R163 to R171) -/

/-- A command of the timer port. -/
inductive TimerCommand where
  | tick
  | compare
  deriving DecidableEq, Repr

def TimerCommand.instr : TimerCommand → Instr
  | .tick => .tmrTick
  | .compare => .tmrMatch

/-- The command makes a compare-match: a tick does on `tcnt = cmp` (R160), TMR_MATCH always (R167). -/
def State.matchesOn (s : State) (c : TimerCommand) : Bool :=
  match c with
  | .tick => s.tcnt == s.cmp
  | .compare => true

/-- The command runs the handler, in its toggle branch (R163, R164). -/
def State.firesToggle (s : State) (c : TimerCommand) : Bool :=
  s.cmpIE && s.matchesOn c && s.atThreshold

/-- The command runs the handler, in its bookkeeping branch (R163, R165). -/
def State.firesBookkeeping (s : State) (c : TimerCommand) : Bool :=
  s.cmpIE && s.matchesOn c && !s.atThreshold

/-- The toggles among the pin-layer calls of the last command. -/
def State.toggles (s : State) : Nat :=
  s.pinCalls.countP fun c => match c with
    | .toggle _ _ => true
    | .configOutput _ | .writeLow _ => false

/-- The same command `n` times over. -/
def execTimes (i : Instr) (n : Nat) (s : State) : Result :=
  match n with
  | 0 => .next s
  | n + 1 => andThen (exec i s) (execTimes i n)

/-- A list of commands, one after the other. -/
def execAll (is : List Instr) (s : State) : Result :=
  match is with
  | [] => .next s
  | i :: rest => andThen (exec i s) (execAll rest)

/-- The responses that a list of commands gives, one after the other, and the state after them; none if
a command stops. -/
def runResponses (is : List Instr) (s : State) : Option (List Response × State) :=
  match is with
  | [] => some ([], s)
  | i :: rest =>
    match exec i s with
    | .next t => (runResponses rest t).map fun (rs, u) => (t.response.toList ++ rs, u)
    | .fault _ => none
    | .refused _ => none

/-- What a run of timer commands comes to: its toggle firings, its toggles, and the state after it. -/
structure TimerTally where
  firings : Nat
  toggles : Nat
  final : State

/-- The tally of a run of timer commands, none if one of them stops. -/
def timerRun (cs : List TimerCommand) (s : State) : Option TimerTally :=
  match cs with
  | [] => some ⟨0, 0, s⟩
  | c :: rest =>
    match exec c.instr s with
    | .next t =>
      (timerRun rest t).map fun r =>
        ⟨(if s.firesToggle c then 1 else 0) + r.firings, t.toggles + r.toggles, r.final⟩
    | .fault _ => none
    | .refused _ => none

/-- The chunks of a half-period before its final one: `ceil(P / CMP_MAX) - 1`, and none for a period
that fits (R169). The first argument is `CMP_MAX`. -/
def bookkeepingChunks (m p : Nat) : Nat := (p + (m - 1)) / m - 1

/-- `F(P) = max(1, ceil(P / CMP_MAX))`, the firings in a half-period (R170). -/
def firingsOf (m p : Nat) : Nat := max 1 ((p + (m - 1)) / m)

/-- `H(P) = P + F(P)`, the ticks in a half-period (R170). -/
def halfPeriodTicks (m p : Nat) : Nat := p + firingsOf m p

/-- The compare value of the `j`-th interval of a half-period, from 0 (R169). -/
def intervalCompare (m p j : Nat) : Nat :=
  if j < bookkeepingChunks m p then m else p - bookkeepingChunks m p * m

/-- The bookkeeping firings of a half-period of the current tone (R169). -/
def State.chunks (s : State) : Nat := bookkeepingChunks s.cfg.cmpMax s.fullPeriod.toNat

/-- The compare value of the `j`-th interval of a half-period of the current tone (R169). -/
def State.interval (s : State) (j : Nat) : Nat :=
  intervalCompare s.cfg.cmpMax s.fullPeriod.toNat j

/-- The ticks of a half-period of the current tone (R170). -/
def State.halfPeriod (s : State) : Nat := halfPeriodTicks s.cfg.cmpMax s.fullPeriod.toNat

/-- A running tone at the start of a half-period: as TONE_START leaves it, and as a toggle firing that
does not end the tone does (R133, R164). -/
def State.atHalfPeriodStart (s : State) : Bool :=
  s.cmpIE && s.tcnt == 0
    && (if fitsCmp s.cfg s.fullPeriod then s.cmp == s.fullPeriod.toNat && s.extRem == 0#32
        else s.cmp == s.cfg.cmpMax && s.extRem == s.fullPeriod)

end Sys2Proof.Machine
end

