-- ==== Sys2Proof/Certificates/Slice0/Obligations.lean ====
section
/-! DEFINITION. The statements about the block, from the numbered rules of spec/. A statement about every
state is a statement about every configuration, since the state carries it. -/

open Sys2Proof Sys2Proof.Machine

/-! ### Encoding -/

/-- Decoding the word of a command, on the command's port, gives the command back (R71 to R74). -/
def Obligations.DecodeEncodeRoundTrip : Prop :=
  ∀ (cfg : Config) (i : Instr), i.wellFormed cfg = true →
    decode cfg.hasOvfCounter i.port (encode i) = .ok i

/-- A word that decodes is the word of the command it decodes to: no bit of it is ignored (R76), its
port is the command's (R77) and its opcode is defined (R75). -/
def Obligations.DecodedWordIsEncoding : Prop :=
  ∀ (cfg : Config) (port : Port) (w : CommandWord) (i : Instr),
    decode cfg.hasOvfCounter port w = .ok i →
      w = encode i ∧ port = i.port ∧ i.wellFormed cfg = true

/-- R75. -/
def Obligations.ReservedOpcodeRefused : Prop :=
  (∀ (hasOvf : Bool) (port : Port) (w : CommandWord),
    decode hasOvf port w = .error .reservedOpcode ↔
      fieldOp w = 0x0#4 ∨ fieldOp w = 0xD#4 ∨ fieldOp w = 0xE#4 ∨ fieldOp w = 0xF#4 ∨
        (hasOvf = false ∧ fieldOp w = 0x6#4)) ∧
  (∀ (hasOvf : Bool) (port : Port), decode hasOvf port 0#64 = .error .reservedOpcode) ∧
  (∀ (hasOvf : Bool) (port : Port) (w : CommandWord),
    decode hasOvf port w ≠ .error .reservedOpcode → ∃ m : Mnemonic, fieldOp w = m.opcode)

/-- R77. -/
def Obligations.WrongPortRefused : Prop :=
  (∀ (hasOvf : Bool) (port : Port) (w : CommandWord) (m : Mnemonic),
    mnemonicOf hasOvf (fieldOp w) = some m →
      (decode hasOvf port w = .error .wrongPort ↔ port ≠ m.port)) ∧
  (∀ m : Mnemonic,
    (m.port = .rx ↔ m = .rbStore) ∧ (m.port = .tmr ↔ m = .tmrTick ∨ m = .tmrMatch) ∧
      (m.port = .fg ↔ m = .rbAvailable ∨ m = .rbPeek ∨ m = .rbRead ∨ m = .rbFlush ∨
        m = .rbOvfcount ∨ m = .toneClaim ∨ m = .toneStart ∨ m = .toneStop ∨ m = .toneStatus))

/-- R76: a word of a defined opcode on its port is refused exactly when it sets a bit that its format
must leave zero, said bit by bit. -/
def Obligations.NonzeroReservedRefused : Prop :=
  ∀ (hasOvf : Bool) (w : CommandWord) (m : Mnemonic),
    mnemonicOf hasOvf (fieldOp w) = some m →
      (decode hasOvf m.port w = .error .nonzeroReserved ↔
        ∃ k, mustBeZero m.format k ∧ w.getLsbD k = true)

/-- A few words of the opcode map's last column decode to their commands (R74). -/
def Obligations.ExampleWordsDecode : Prop :=
  decode true .rx 0x1000000000000041#64 = .ok (.rbStore 0x41#8) ∧
  decode true .fg 0x4000000000000000#64 = .ok .rbRead ∧
  decode true .fg 0x7090000000000000#64 = .ok (.toneClaim 9#8) ∧
  decode true .fg 0x809001B8000003E8#64 = .ok (.toneStart 9#8 440#16 1000#32) ∧
  decode true .tmr 0xB000000000000000#64 = .ok .tmrTick

/-- R52: a command word travels over a byte-wide link as eight bytes, least significant first, and is
read back whole, with the bytes after it left; a response word as four. -/
def Obligations.ByteLinkRoundTrip : Prop :=
  (∀ (w : CommandWord) (rest : List Byte),
    (commandBytes w).length = 8 ∧
    (∀ k, k < 8 → (commandBytes w)[k]? = some (w.extractLsb' (8 * k) 8)) ∧
    takeCommandWord (commandBytes w ++ rest) = some (w, rest)) ∧
  (∀ r : Response, (responseBytes r).length = 4 ∧ natOfBytes (responseBytes r) = r.toNat)

/-- R81, R82: the assembler refuses an operand that does not fit its field and gives any other its
command, and the two repeating pseudo-instructions stand for N equal commands. -/
def Obligations.AssemblerChecksOperands : Prop :=
  (∀ c, assembleCommand .rbStore [c] =
    if 255 < c then none else some (.rbStore (BitVec.ofNat 8 c))) ∧
  (∀ pin, assembleCommand .toneClaim [pin] =
      (if 255 < pin then none else some (.toneClaim (BitVec.ofNat 8 pin))) ∧
    assembleCommand .toneStop [pin] =
      (if 255 < pin then none else some (.toneStop (BitVec.ofNat 8 pin)))) ∧
  (∀ pin freq dur, assembleCommand .toneStart [pin, freq, dur] =
    if 255 < pin ∨ 65535 < freq ∨ 2 ^ 32 - 1 < dur then none
    else some (.toneStart (BitVec.ofNat 8 pin) (BitVec.ofNat 16 freq) (BitVec.ofNat 32 dur))) ∧
  (∀ n, 1 ≤ n →
    assembleLine ⟨"tmr.ticks", [n]⟩ = some (List.replicate n .tmrTick) ∧
    assembleLine ⟨"tmr.matches", [n]⟩ = some (List.replicate n .tmrMatch))

/-- Every function from frequencies to 32-bit periods is the `PERIOD_FN` of a configuration: the form
in which the model holds that parameter leaves none out (R7; log entry 6). -/
def Obligations.EveryPeriodFunctionIsConfigurable : Prop :=
  ∀ (cfg : Config) (g : Frequency → Period), ∃ rows : List (Frequency × Period),
    ∀ f, periodOf { cfg with periodRows := rows } f = g f

/-! ### Steps, refusals, reset -/

/-- A step runs the decoded command: the event is taken from the inbox, a next state or a fault of its
meaning is the step's, and a refusal leaves the state but for the mark and the outputs (R58, R202). -/
def Obligations.StepRunsDecodedCommand : Prop :=
  ∀ (s : State) (port : Port) (w : CommandWord) (rest : List Event) (i : Instr),
    configOk s.cfg = true → s.inbox = .command port w :: rest →
    decode s.cfg.hasOvfCounter port w = .ok i →
      (∀ t, exec i { s with inbox := rest } = .next t → step s = .next t) ∧
      (∀ f, exec i { s with inbox := rest } = .fault f → step s = .fault f) ∧
      (∀ r, exec i { s with inbox := rest } = .refused (.command r) →
        step s = .next
          { s with
            inbox := rest, refused := true, response := none, pinCalls := [],
            refusal := some r })

/-- R202, R203: of the causes that apply to a word, the one with the lowest code is reported, and the
command then writes nothing, calls nothing and responds nothing: it sets the sticky mark. A word to
which no cause applies runs, and sets no mark. -/
def Obligations.LowestCauseRefuses : Prop :=
  ∀ (s : State) (port : Port) (w : CommandWord) (rest : List Event),
    configOk s.cfg = true → s.inbox = .command port w :: rest →
      (∀ r, s.causeApplies port w r → (∀ r', s.causeApplies port w r' → r.code ≤ r'.code) →
        step s = .next
          { s with
            inbox := rest, refused := true, response := none, pinCalls := [],
            refusal := some r }) ∧
      (s.Inv → (∀ r, ¬ s.causeApplies port w r) →
        ∃ t, step s = .next t ∧ t.refused = s.refused ∧ t.refusal = none)

/-- R204: a configuration outside its domain is refused. (That `PERIOD_FN` is total into 32 bits holds
of every configuration the model can hold.) -/
def Obligations.BadConfigurationRefused : Prop :=
  ∀ s : State,
    (s.cfg.cap < 1 ∨ s.cfg.reloadThreshold < 1 ∨ s.cfg.cmpMax + 1 < s.cfg.reloadThreshold ∨
      s.cfg.numPins < 1 ∨ 256 < s.cfg.numPins ∨ s.cfg.numPorts < 1 ∨ 256 < s.cfg.numPorts ∨
      (∃ pin loc, pinLoc s.cfg pin = some loc ∧
        (s.cfg.numPorts ≤ loc.port.toNat ∨
          ¬ ∃ k, k < 8 ∧ ∀ j, j < 8 → (loc.mask.getLsbD j = true ↔ j = k)))) →
      step s = .refused .configuration

/-- R230: asserting reset puts every block register into its reset value, leaves storage with bytes
that the statement says nothing about, and does not touch the pin layer; after it the block waits for
commands. That a step without an event leaves the state as it is, outputs and all, is the model's choice
(log entries 1 and 11), and so is the form of the reset event (log entry 16). -/
def Obligations.ResetInputLoadsResetValues : Prop :=
  (∀ (s : State) (contents : List Byte) (rest : List Event),
    configOk s.cfg = true → s.inbox = .reset contents :: rest →
      ∃ m, step s = .next
        { cfg := s.cfg, storage := m, head := 0, tail := 0, ovfCount := 0#32,
          claimValid := false, claimedPin := 0#8, outPort := 0#8, outMask := 0#8, cmp := 0,
          extRem := 0#32, fullPeriod := 0#32, tc := 0#64, cmpIE := false, tcnt := 0,
          refused := false, portOut := s.portOut, portDir := s.portDir, inbox := rest,
          response := none, pinCalls := [], refusal := none }) ∧
  (∀ s : State, configOk s.cfg = true → s.inbox = [] → step s = .next s)

/-- R231: what holds after reset, for every configuration, every storage contents and every initial pin
layer. -/
def Obligations.StateAfterReset : Prop :=
  ∀ (cfg : Config) (contents portOut portDir : List Byte),
    configOk cfg = true → portOut.length = cfg.numPorts → portDir.length = cfg.numPorts →
      ∀ s, s = State.powerUp cfg (Memory.ofBytes 0 (contents.take cfg.cap)) portOut portDir →
        s.avail = 0 ∧
        exec .rbPeek s = .next { s with response := some cfg.emptyResponse } ∧
        exec .rbRead s = .next { s with response := some cfg.emptyResponse } ∧
        s.toneFsm = some .free ∧ s.cmpIE = false ∧ s.tc = 0#64 ∧ s.cmp = 0 ∧
        (∀ n, execTimes .tmrTick n s = .next s) ∧
        (s.tc = 0#64 → s.cmpIE = false) ∧
        s.Inv

/-- The machine right after reset, in the configuration the model chose for it (log entry 4) and with
the storage and pin layer it chose (log entries 2 and 3), meets both invariants. -/
def Obligations.ResetMeetsInvariant : Prop :=
  State.reset.Inv ∧ State.reset.ChunkInv

/-- R232. -/
def Obligations.OnlyResetClearsMarks : Prop :=
  (∀ s t : State, step s = .next t → (∀ contents, s.inbox.head? ≠ some (.reset contents)) →
    s.ovfCount.toNat ≤ t.ovfCount.toNat ∧ (s.refused = true → t.refused = true)) ∧
  (∀ s t : State, exec .rbFlush s = .next t → t.ovfCount = s.ovfCount) ∧
  (∀ (s t : State) (contents : List Byte), step s = .next t →
    s.inbox.head? = some (.reset contents) → t.ovfCount = 0#32 ∧ t.refused = false)

/-! ### Ring buffer -/

/-- R101: a full buffer drops the byte and counts it; any other takes it in slot `head`, and no other
slot changes. -/
def Obligations.StoreWritesOrDrops : Prop :=
  ∀ (s : State) (c : Byte), s.head < s.cfg.cap → Memory.wf s.cfg.cap s.storage = true →
    ((s.head + 1) % s.cfg.cap = s.tail →
      exec (.rbStore c) s = .next
        { s with
          ovfCount :=
            if s.cfg.hasOvfCounter = true ∧ s.ovfCount ≠ 0xFFFFFFFF#32 then s.ovfCount + 1#32
            else s.ovfCount
          response := none, pinCalls := [], refusal := none }) ∧
    ((s.head + 1) % s.cfg.cap ≠ s.tail →
      ∃ m, exec (.rbStore c) s = .next
        { s with
          storage := m, head := (s.head + 1) % s.cfg.cap
          response := none, pinCalls := [], refusal := none } ∧
        Memory.read m s.head = c ∧
        (∀ j, j ≠ s.head → Memory.read m j = Memory.read s.storage j) ∧
        Memory.wf s.cfg.cap m = true)

/-- R102: the response is the available count, and nothing else changes. A count of more than 32 bits
has the model's free value (log entry 12). -/
def Obligations.AvailableResponds : Prop :=
  ∀ s : State, s.head < s.cfg.cap → s.tail < s.cfg.cap →
    ∃ r, exec .rbAvailable s =
      .next { s with response := some r, pinCalls := [], refusal := none } ∧
      ((s.cfg.cap + s.head - s.tail) % s.cfg.cap < 2 ^ 32 →
        r.toNat = (s.cfg.cap + s.head - s.tail) % s.cfg.cap)

/-- R26. -/
def Obligations.AvailableCountsUnread : Prop :=
  (∀ s : State, s.head < s.cfg.cap → s.tail < s.cfg.cap →
    s.avail = (s.cfg.cap + s.head - s.tail) % s.cfg.cap ∧
    (s.isEmpty = true ↔ s.head = s.tail) ∧ (s.isEmpty = true ↔ s.avail = 0) ∧
    (s.isFull = true ↔ (s.head + 1) % s.cfg.cap = s.tail) ∧
    (s.isFull = true ↔ s.avail = s.cfg.cap - 1) ∧
    s.avail ≤ s.cfg.cap - 1) ∧
  (∀ (cfg : Config) (m : Memory) (portOut portDir : List Byte), 1 ≤ cfg.cap →
    (State.powerUp cfg m portOut portDir).avail = 0)

/-- R103. -/
def Obligations.PeekResponds : Prop :=
  ∀ s : State, s.tail < s.cfg.cap →
    exec .rbPeek s = .next
      { s with
        response := some
          (if s.head = s.tail then s.cfg.emptyResponse else (s.storage.read s.tail).setWidth 32)
        pinCalls := [], refusal := none }

/-- R104. -/
def Obligations.ReadConsumes : Prop :=
  ∀ s : State, s.tail < s.cfg.cap →
    exec .rbRead s = .next
      { s with
        tail := if s.head = s.tail then s.tail else (s.tail + 1) % s.cfg.cap
        response := some
          (if s.head = s.tail then s.cfg.emptyResponse else (s.storage.read s.tail).setWidth 32)
        pinCalls := [], refusal := none }

/-- R79: "no data" is `EMPTY`, which at the spec's value is told from every byte by bit 31 alone. -/
def Obligations.EmptyIsNoByte : Prop :=
  ∀ (i : Instr) (s t : State), i = .rbPeek ∨ i = .rbRead → exec i s = .next t →
    ∃ r, t.response = some r ∧
      (s.head = s.tail → r = s.cfg.emptyResponse) ∧
      (s.head ≠ s.tail → (∃ b : Byte, r = b.setWidth 32) ∧ r.extractLsb' 8 24 = 0x000000#24) ∧
      (s.cfg.emptyResponse = 0xFFFFFFFF#32 →
        (s.head = s.tail → r.toInt = -1 ∧ r.extractLsb' 8 24 = 0xFFFFFF#24) ∧
        (r.getLsbD 31 = true ↔ s.head = s.tail))

/-- R105. -/
def Obligations.FlushDiscards : Prop :=
  ∀ s : State, exec .rbFlush s = .next
    { s with tail := s.head, response := some 0#32, pinCalls := [], refusal := none }

/-- R106, R75: the counter is read, and the command is refused where there is no counter. -/
def Obligations.OverflowCountResponds : Prop :=
  ∀ s : State,
    (s.cfg.hasOvfCounter = true → exec .rbOvfcount s =
      .next { s with response := some s.ovfCount, pinCalls := [], refusal := none }) ∧
    (s.cfg.hasOvfCounter = false → exec .rbOvfcount s = .refused (.command .reservedOpcode))

/-- R107 (a) to (d), for commands that follow one another directly. -/
def Obligations.BufferLaws : Prop :=
  ∀ s : State, s.Inv →
    (∀ bytes : List Byte, s.avail = 0 → bytes.length ≤ s.cfg.cap - 1 → bytes.length < 2 ^ 32 →
      ∃ t, runResponses
        (bytes.map .rbStore ++ [.rbAvailable] ++ List.replicate bytes.length .rbRead) s =
          some (BitVec.ofNat 32 bytes.length :: bytes.map (·.setWidth 32), t)) ∧
    (∀ bytes : List Byte, s.avail = 0 → s.cfg.cap ≤ bytes.length →
      ∃ t, execAll (bytes.map .rbStore) s = .next t ∧ t.buffered = bytes.take (s.cfg.cap - 1) ∧
        t.avail = s.cfg.cap - 1 ∧
        (s.cfg.hasOvfCounter = true →
          s.ovfCount.toNat + (bytes.length - (s.cfg.cap - 1)) < 2 ^ 32 →
          t.ovfCount.toNat = s.ovfCount.toNat + (bytes.length - (s.cfg.cap - 1)))) ∧
    (∃ t, runResponses [.rbFlush, .rbAvailable] s = some ([0#32, 0#32], t)) ∧
    (s.avail ≠ 0 → ∃ b : Byte, ∃ t,
      runResponses [.rbPeek, .rbPeek, .rbRead] s =
        some ([b.setWidth 32, b.setWidth 32, b.setWidth 32], t) ∧
      t.tail = (s.tail + 1) % s.cfg.cap)

/-- R60: the ring buffer is a queue of at most `CAP - 1` bytes that drops the newest byte when it is
full. Each command acts on the queue as it should, and every other command leaves it alone. -/
def Obligations.BufferRefinesQueue : Prop :=
  ∀ (s t : State) (i : Instr), s.Inv → exec i s = .next t →
    s.buffered.length = s.avail ∧
    match i with
    | .rbStore c =>
      t.buffered = if s.buffered.length < s.cfg.cap - 1 then s.buffered ++ [c] else s.buffered
    | .rbRead =>
      t.buffered = s.buffered.tail ∧
        t.response = some (match s.buffered.head? with
          | none => s.cfg.emptyResponse
          | some b => b.setWidth 32)
    | .rbPeek =>
      t.buffered = s.buffered ∧
        t.response = some (match s.buffered.head? with
          | none => s.cfg.emptyResponse
          | some b => b.setWidth 32)
    | .rbFlush => t.buffered = []
    | .rbAvailable | .rbOvfcount | .toneClaim _ | .toneStart _ _ _ | .toneStop _ | .toneStatus
    | .tmrTick | .tmrMatch => t.buffered = s.buffered

/-- R242: stores are all accepted as long as they are at most `CAP - 1 - avail`, and the next one is
dropped. -/
def Obligations.NoLossWithinRoom : Prop :=
  ∀ (s : State) (bytes : List Byte), s.Inv → bytes.length ≤ s.cfg.cap - 1 - s.avail →
    ∃ t, execAll (bytes.map .rbStore) s = .next t ∧ t.buffered = s.buffered ++ bytes ∧
      t.ovfCount = s.ovfCount ∧
      (bytes.length = s.cfg.cap - 1 - s.avail →
        ∀ c, ∃ u, exec (.rbStore c) t = .next u ∧ u.buffered = t.buffered)

/-- R51: every index is the next one of an index in range, or a copy of one, so that no storage access
is out of range. -/
def Obligations.IndicesWrapInRange : Prop :=
  (∀ (cfg : Config) (i : Nat), i < cfg.cap → nextIdx cfg i = (i + 1) % cfg.cap ∧
    nextIdx cfg i < cfg.cap) ∧
  (∀ (s t : State) (i : Instr), exec i s = .next t →
    (t.head = s.head ∨ t.head = nextIdx s.cfg s.head) ∧
    (t.tail = s.tail ∨ t.tail = nextIdx s.cfg s.tail ∨ t.tail = s.head)) ∧
  (∀ (s : State) (i : Instr) (k : Nat), s.head < s.cfg.cap → s.tail < s.cfg.cap →
    exec i s ≠ .fault (.slotOutOfRange k))

/-- R44 (c), R23: the bytes that storage holds at reset are never observed. Two blocks that differ in
them alone, given the same events, stay equal in everything but slots that hold no unread byte, so
that every response is the same. -/
def Obligations.ResetStorageUnobservable : Prop :=
  ∀ (cfg : Config) (contents contents' portOut portDir : List Byte) (events : List Event) (n : Nat),
    configOk cfg = true → portOut.length = cfg.numPorts → portDir.length = cfg.numPorts →
      ∃ s t,
        Host.Core.run Sys2Proof.core n
          ((State.powerUp cfg (Memory.ofBytes 0 (contents.take cfg.cap)) portOut portDir).setInbox
            events) = .next s ∧
        Host.Core.run Sys2Proof.core n
          ((State.powerUp cfg (Memory.ofBytes 0 (contents'.take cfg.cap)) portOut portDir).setInbox
            events) = .next t ∧
        SameButUnread s t ∧ s.response = t.response

/-! ### Tone control -/

/-- R130, R131: the claim attempt and its response; nothing but the claim changes, and on failure
nothing at all. -/
def Obligations.ClaimResponds : Prop :=
  ∀ (s : State) (pin : PinId),
    (pin.toNat < s.cfg.numPins → (s.claimValid = false ∨ s.claimedPin = pin) →
      exec (.toneClaim pin) s = .next
        { s with
          claimValid := true, claimedPin := pin
          response := some 1#32, pinCalls := [], refusal := none }) ∧
    (pin.toNat < s.cfg.numPins → s.claimValid = true → s.claimedPin ≠ pin →
      exec (.toneClaim pin) s =
        .next { s with response := some 0#32, pinCalls := [], refusal := none }) ∧
    (s.cfg.numPins ≤ pin.toNat → exec (.toneClaim pin) s = .refused (.command .pinOutOfRange))

/-- R138. -/
def Obligations.ClaimLaws : Prop :=
  ∀ (s : State) (a b : PinId), a.toNat < s.cfg.numPins → b.toNat < s.cfg.numPins →
    s.claimValid = true → s.claimedPin = a → a ≠ b →
      (∃ t, exec (.toneClaim a) s = .next t ∧ t.response = some 1#32) ∧
      (∃ t, exec (.toneClaim b) s = .next t ∧ t.response = some 0#32 ∧ t.quiet = s.quiet)

/-- R132, R133, R134: a start whose claim succeeds writes exactly these fields. -/
def Obligations.StartPrograms : Prop :=
  ∀ (s : State) (pin : PinId) (f : Frequency) (d : Duration) (loc : PinLoc) (p : Period),
    pinLoc s.cfg pin = some loc → (s.claimValid = false ∨ s.claimedPin = pin) → f ≠ 0#16 →
    loc.port.toNat < s.portDir.length → p = periodOf s.cfg f →
      exec (.toneStart pin f d) s = .next
        { s with
          claimValid := true, claimedPin := pin
          outPort := loc.port, outMask := loc.mask
          portDir := s.portDir.modify loc.port.toNat (· ||| loc.mask)
          fullPeriod := p
          cmp := if p.toNat ≤ s.cfg.cmpMax then p.toNat else s.cfg.cmpMax
          extRem := if p.toNat ≤ s.cfg.cmpMax then 0#32 else p
          tc := countdown s.cfg f d, tcnt := 0, cmpIE := true
          response := some 0#32, pinCalls := [.configOutput pin], refusal := none }

/-- R132, R201: a start that loses the claim has no effect at any frequency; a start is refused for a
pin that is not there, and for frequency 0 when its claim would succeed. -/
def Obligations.StartLosesOrIsRefused : Prop :=
  ∀ (s : State) (pin : PinId) (f : Frequency) (d : Duration),
    (pin.toNat < s.cfg.numPins → s.claimValid = true → s.claimedPin ≠ pin →
      exec (.toneStart pin f d) s =
        .next { s with response := some 0#32, pinCalls := [], refusal := none }) ∧
    (s.cfg.numPins ≤ pin.toNat →
      exec (.toneStart pin f d) s = .refused (.command .pinOutOfRange)) ∧
    (pin.toNat < s.cfg.numPins → (s.claimValid = false ∨ s.claimedPin = pin) →
      exec (.toneStart pin 0#16 d) s = .refused (.command .zeroFrequency))

/-- R134: the countdown is exact and fits the register. -/
def Obligations.CountdownExact : Prop :=
  (∀ (cfg : Config) (f : Frequency) (d : Duration),
    (countdown cfg f d).toInt =
      (if d = 0#32 then cfg.unbounded.toInt
        else ((2 * f.toNat * d.toNat / cfg.msPerS : Nat) : Int)) ∧
    2 * f.toNat * d.toNat / 1000 ≤ 562941363355) ∧
  (∀ (cfg : Config) (f : Frequency), cfg.unbounded = 0xFFFFFFFFFFFFFFFF#64 →
    (countdown cfg f 0#32).toInt = -1) ∧
  (∀ cfg : Config, cfg.msPerS = 1000 →
    (countdown cfg 0xFFFF#16 0xFFFFFFFF#32).toInt = 562941363355 ∧
    (562941363355 : Nat) < 2 ^ 63 ∧
    (∀ (f : Frequency) (d : Duration), d ≠ 0#32 → 2 * f.toNat * d.toNat < 1000 →
      countdown cfg f d = 0#64) ∧
    (countdown cfg 1#16 499#32).toInt = 0 ∧ (countdown cfg 440#16 1000#32).toInt = 880 ∧
    (countdown cfg 3#16 333#32).toInt = 1)

/-- R137: (a) a start on the claimed pin replaces the period, its chunk and remainder and the countdown,
and restarts the counter, whatever was left of the previous ones; (b) a start on another pin changes no state and
calls nothing. -/
def Obligations.StartOverridesOrLoses : Prop :=
  ∀ (s : State) (pin : PinId) (f : Frequency) (d : Duration) (t : State),
    s.claimValid = true → exec (.toneStart pin f d) s = .next t →
      (s.claimedPin = pin →
        t.fullPeriod = periodOf s.cfg f ∧ t.tc = countdown s.cfg f d ∧ t.tcnt = 0 ∧
        t.cmp = min (periodOf s.cfg f).toNat s.cfg.cmpMax ∧
        t.extRem =
          (if (periodOf s.cfg f).toNat ≤ s.cfg.cmpMax then 0#32 else periodOf s.cfg f) ∧
        ∀ (p r : Period) (c k : Nat) (n : Countdown),
          exec (.toneStart pin f d)
            { s with fullPeriod := p, extRem := r, cmp := c, tcnt := k, tc := n } = .next t) ∧
      (s.claimedPin ≠ pin → t.quiet = s.quiet ∧ t.pinCalls = [])

/-- R135: the pin is driven low in every case; the interrupt and the claim go only when the pin holds
the claim. -/
def Obligations.StopReleasesAndDrivesLow : Prop :=
  ∀ (s : State) (pin : PinId),
    (∀ loc, pinLoc s.cfg pin = some loc → loc.port.toNat < s.portOut.length →
      (s.claimValid = true → s.claimedPin = pin →
        exec (.toneStop pin) s = .next
          { s with
            cmpIE := false, claimValid := false, claimedPin := 0#8
            portOut := s.portOut.modify loc.port.toNat (· &&& ~~~loc.mask)
            response := some 0#32, pinCalls := [.writeLow pin], refusal := none }) ∧
      ((s.claimValid = false ∨ s.claimedPin ≠ pin) →
        exec (.toneStop pin) s = .next
          { s with
            portOut := s.portOut.modify loc.port.toNat (· &&& ~~~loc.mask)
            response := some 0#32, pinCalls := [.writeLow pin], refusal := none })) ∧
    (s.cfg.numPins ≤ pin.toNat → exec (.toneStop pin) s = .refused (.command .pinOutOfRange))

/-- R80, R136: the bits of the status word. -/
def Obligations.StatusWordFields : Prop :=
  ∀ s : State, ∃ w,
    exec .toneStatus s = .next { s with response := some w, pinCalls := [], refusal := none } ∧
    w.getLsbD 0 = s.claimValid ∧ w.getLsbD 1 = s.cmpIE ∧
    (w.getLsbD 2 = true ↔ 0 < s.tc.toInt) ∧ (w.getLsbD 3 = true ↔ s.tc.toInt < 0) ∧
    w.extractLsb' 4 4 = 0#4 ∧ w.extractLsb' 8 8 = s.claimedPin ∧ w.extractLsb' 16 16 = 0#16 ∧
    (s.Inv → s.claimValid = false → w.extractLsb' 8 8 = 0#8)

/-- R139: a stop of the claimed pin disables the interrupt, and until the next successful start no
command but a stop changes an output level, and a stop clears the bit of its own pin alone. -/
def Obligations.NoToggleAfterStop : Prop :=
  (∀ (s t : State), s.claimValid = true → exec (.toneStop s.claimedPin) s = .next t →
    t.cmpIE = false) ∧
  (∀ (s t : State) (i : Instr), s.cmpIE = false → exec i s = .next t →
    (t.cmpIE = true → ∃ pin f d, i = .toneStart pin f d ∧ s.canClaim pin = true) ∧
    (t.portOut = s.portOut ∨
      ∃ pin loc, i = .toneStop pin ∧ pinLoc s.cfg pin = some loc ∧
        t.portOut = s.portOut.modify loc.port.toNat (· &&& ~~~loc.mask))) ∧
  (∀ (s t : State) (n : Nat), s.cmpIE = false →
    (∀ port w i, .command port w ∈ s.inbox → decode s.cfg.hasOvfCounter port w = .ok i →
      (∀ pin f d, i ≠ .toneStart pin f d) ∧ ∀ pin, i ≠ .toneStop pin) →
    Host.Core.run Sys2Proof.core n s = .next t → t.portOut = s.portOut ∧ t.cmpIE = false)

/-- R140: every state that meets the invariant is in a state of the FSM, and each command moves it as
the transition table says. -/
def Obligations.ToneFsmTransitions : Prop :=
  ∀ s : State, s.Inv → ∃ x, s.toneFsm = some x ∧
    (∀ p t, exec (.toneClaim p) s = .next t →
      (x = .free → t.toneFsm = some (.held p) ∧ t.response = some 1#32) ∧
      (x ≠ .free → t.toneFsm = some x ∧
        t.response = some (if p = s.claimedPin then 1#32 else 0#32))) ∧
    (∀ p f d t, exec (.toneStart p f d) s = .next t →
      (x = .free ∨ p = s.claimedPin →
        f ≠ 0#16 ∧ t.toneFsm = some (ToneFsm.running p (countdown s.cfg f d))) ∧
      (x ≠ .free → p ≠ s.claimedPin → t.toneFsm = some x ∧ t.quiet = s.quiet)) ∧
    (∀ p d, p.toNat < s.cfg.numPins → x = .free →
      exec (.toneStart p 0#16 d) s = .refused (.command .zeroFrequency)) ∧
    (∀ p t, exec (.toneStop p) s = .next t →
      (x = .free → t.toneFsm = some .free) ∧
      (x ≠ .free → t.toneFsm = some (if p = s.claimedPin then .free else x)) ∧
      ∀ loc, pinLoc s.cfg p = some loc → t.pinLevel loc = some false) ∧
    (∀ (c : TimerCommand) (t : State), exec c.instr s = .next t →
      (s.firesToggle c = false → t.toneFsm = some x ∧ t.toggles = 0) ∧
      (s.firesToggle c = true →
        match x with
        | .free | .held _ => False
        | .runFinite p =>
          t.toggles = 1 ∧ t.tc = s.tc - 1#64 ∧
          t.toneFsm = some (if s.tc = 1#64 then
            (match s.cfg.endCheck with
              | .afterDecrement => .held p
              | .elseBranch => .runLast p) else .runFinite p)
        | .runLast p => t.toggles = 0 ∧ t.toneFsm = some (.held p)
        | .runUnbounded p => t.toggles = 1 ∧ t.toneFsm = some (.runUnbounded p)) ∧
      (x = .free ∨ x = .held s.claimedPin →
        t.quiet = { s.quiet with tcnt := t.tcnt })) ∧
    (∀ i t, exec i s = .next t → (∃ c, i = .rbStore c) ∨ i = .rbAvailable ∨ i = .rbPeek ∨
      i = .rbRead ∨ i = .rbFlush ∨ i = .rbOvfcount ∨ i = .toneStatus → t.toneFsm = some x)

/-! ### Timer and handler -/

/-- R160: after the counter is 0, the next compare-match is on the (cmp + 1)-th tick, whatever the
interrupt enable is; with cmp = 0 it is on every tick. -/
def Obligations.CounterInterval : Prop :=
  ∀ s : State, s.tcnt = 0 → s.cmp ≤ s.cfg.cmpMax →
    (∀ k, k ≤ s.cmp → quietResult (execTimes .tmrTick k s) = .next { s.quiet with tcnt := k }) ∧
    execTimes .tmrTick (s.cmp + 1) s = exec .tmrMatch { s with tcnt := s.cmp } ∧
    ∀ t, execTimes .tmrTick (s.cmp + 1) s = .next t → t.tcnt = 0

/-- R161, R162, R167: a tick off the match counts, a tick on it is a compare-match, and a compare-match
with the interrupt disabled is discarded: it only restarts the counter. -/
def Obligations.TickCountsOrMatches : Prop :=
  ∀ s : State,
    (s.tcnt ≠ s.cmp → exec .tmrTick s = .next
      { s with
        tcnt := (s.tcnt + 1) % 2 ^ s.cfg.cmpWidth
        response := none, pinCalls := [], refusal := none }) ∧
    (s.tcnt = s.cmp → exec .tmrTick s = exec .tmrMatch s) ∧
    (s.cmpIE = false → exec .tmrMatch s = .next
      { s with tcnt := 0, response := none, pinCalls := [], refusal := none })

/-- R163, R164, R166: a compare-match below the reload threshold reloads an extended period, toggles
the pin and counts down unless the count is 0, and disables the interrupt as END_CHECK says. -/
def Obligations.ToggleFiringEffect : Prop :=
  ∀ s : State, s.cmpIE = true → s.extRem.toNat < s.cfg.reloadThreshold →
    s.outPort.toNat < s.portOut.length →
      exec .tmrMatch s = .next
        { s with
          tcnt := 0
          cmp := if s.cfg.cmpMax < s.fullPeriod.toNat then s.cfg.cmpMax else s.cmp
          extRem := if s.cfg.cmpMax < s.fullPeriod.toNat then s.fullPeriod else s.extRem
          portOut :=
            if s.tc = 0#64 then s.portOut
            else s.portOut.modify s.outPort.toNat (· ^^^ s.outMask)
          tc := if 0 < s.tc.toInt then s.tc - 1#64 else s.tc
          cmpIE :=
            match s.cfg.endCheck with
            | .afterDecrement => decide (s.tc ≠ 0#64 ∧ s.tc ≠ 1#64)
            | .elseBranch => decide (s.tc ≠ 0#64)
          response := none
          pinCalls := if s.tc = 0#64 then [] else [.toggle s.outPort s.outMask]
          refusal := none }

/-- R163, R165: a compare-match at or above the reload threshold takes one chunk from an extended
period, and a rest that fits the register becomes the final chunk. Where no reachable state is, below
one chunk, the rest is the model's free value (log entry 13). -/
def Obligations.BookkeepingFiringEffect : Prop :=
  ∀ s : State, s.cmpIE = true → s.cfg.reloadThreshold ≤ s.extRem.toNat →
    ∃ r : Period,
      (s.fullPeriod.toNat ≤ s.cfg.cmpMax → r = s.extRem) ∧
      (s.cfg.cmpMax < s.fullPeriod.toNat → s.cfg.cmpMax ≤ s.extRem.toNat →
        r.toNat = s.extRem.toNat - s.cfg.cmpMax) ∧
      exec .tmrMatch s = .next
        { s with
          tcnt := 0
          cmp := if r.toNat ≤ s.cfg.cmpMax then r.toNat else s.cmp
          extRem := if r.toNat ≤ s.cfg.cmpMax then 0#32 else r
          response := none, pinCalls := [], refusal := none }

/-- R168: in every state that meets the invariant, the threshold test says whether the remainder is
exhausted, the subtraction leaves at least 1, and the final chunk is in 1..CMP_MAX. -/
def Obligations.RemainderNeverUnderflows : Prop :=
  ∀ s : State, s.Inv →
    (s.extRem = 0#32 ∨ (s.cfg.cmpMax < s.extRem.toNat ∧ s.extRem.toNat ≤ s.fullPeriod.toNat)) ∧
    (s.extRem.toNat < s.cfg.reloadThreshold ↔ s.extRem = 0#32) ∧
    ∀ (c : TimerCommand) (t : State), s.firesBookkeeping c = true → exec c.instr s = .next t →
      s.cfg.cmpMax + 1 ≤ s.extRem.toNat ∧
      (t.extRem ≠ 0#32 → t.extRem.toNat = s.extRem.toNat - s.cfg.cmpMax) ∧
      (t.extRem = 0#32 → t.cmp = s.extRem.toNat - s.cfg.cmpMax ∧ 1 ≤ t.cmp ∧
        t.cmp ≤ s.cfg.cmpMax)

/-- R169: the intervals of a half-period. With P = fullPeriod there are k bookkeeping firings, each
after an interval with cmp = CMP_MAX, and then one interval with the exact rest, which ends in a
toggle firing; the compare values sum to P. -/
def Obligations.ChunksSumToPeriod : Prop :=
  ∀ s : State, s.Inv → s.atHalfPeriodStart = true →
    (∀ j, j ≤ s.chunks → ∃ t, execTimes .tmrMatch j s = .next t ∧ t.cmp = s.interval j ∧
      (t.firesBookkeeping .compare = true ↔ j < s.chunks) ∧
      (t.firesToggle .compare = true ↔ j = s.chunks) ∧
      t.tc = s.tc ∧ t.portOut = s.portOut) ∧
    ((List.range (s.chunks + 1)).map s.interval).sum = s.fullPeriod.toNat ∧
    (s.cfg.cmpMax < s.fullPeriod.toNat →
      1 ≤ s.chunks ∧ (∀ j, j < s.chunks → s.interval j = s.cfg.cmpMax) ∧
      1 ≤ s.interval s.chunks ∧ s.interval s.chunks ≤ s.cfg.cmpMax)

/-- R170: driven by ticks alone, a half-period lasts H(P) ticks: the H(P)-th is its one toggle firing,
and the next half-period starts there unless the tone ends. -/
def Obligations.HalfPeriodLength : Prop :=
  (∀ s : State, s.Inv → s.atHalfPeriodStart = true →
    (∀ k, k + 1 < s.halfPeriod → ∃ t, execTimes .tmrTick k s = .next t ∧
      t.firesToggle .tick = false ∧ t.portOut = s.portOut ∧ t.tc = s.tc) ∧
    ∃ t u, execTimes .tmrTick (s.halfPeriod - 1) s = .next t ∧
      t.firesToggle .tick = true ∧ t.portOut = s.portOut ∧ t.tc = s.tc ∧
      exec .tmrTick t = .next u ∧
      u.portOut = (if s.tc = 0#64 then s.portOut
        else s.portOut.modify s.outPort.toNat (· ^^^ s.outMask)) ∧
      (u.cmpIE = true → u.atHalfPeriodStart = true ∧ u.fullPeriod = s.fullPeriod)) ∧
  halfPeriodTicks 255 0 = 1 ∧ halfPeriodTicks 255 141 = 142 ∧ halfPeriodTicks 255 255 = 256 ∧
  halfPeriodTicks 255 256 = 258 ∧ halfPeriodTicks 255 600 = 603

/-- R171: how often a tone toggles, in a run of any ticks and compare-matches. A finite count of n
toggles exactly n times, on the first n toggle firings; the interrupt goes off on the n-th toggle
firing, or on the one after it in the other reading; an unbounded count toggles on every toggle
firing. -/
def Obligations.FiniteToneLength : Prop :=
  ∀ (cs : List TimerCommand) (s : State), s.Inv → s.cmpIE = true →
    ∃ r, timerRun cs s = some r ∧
      (∀ n : Nat, s.tc.toInt = n →
        r.final.tc.toInt = (n : Int) - r.toggles ∧
        (s.cfg.endCheck = .afterDecrement → n ≠ 0 →
          r.toggles = r.firings ∧ r.firings ≤ n ∧ (r.final.cmpIE = false ↔ r.firings = n)) ∧
        (s.cfg.endCheck = .elseBranch ∨ n = 0 →
          r.toggles = min r.firings n ∧ r.firings ≤ n + 1 ∧
          (r.final.cmpIE = false ↔ r.firings = n + 1))) ∧
      (s.tc.toInt < 0 →
        r.toggles = r.firings ∧ r.final.cmpIE = true ∧ r.final.tc = s.tc)

/-- R241: an event of the timer makes at most one pin-layer call, a toggle, and writes no register but
the counter, the compare register, the remainder, the countdown and the interrupt enable. -/
def Obligations.HandlerWorkBounded : Prop :=
  ∀ (s t : State) (c : TimerCommand), exec c.instr s = .next t →
    (t.pinCalls = [] ∨ t.pinCalls = [.toggle s.outPort s.outMask]) ∧ t.response = none ∧
    t.quiet =
      { s.quiet with
        tcnt := t.tcnt, cmp := t.cmp, extRem := t.extRem, tc := t.tc, cmpIE := t.cmpIE,
        portOut := t.portOut } ∧
    (t.tcnt = 0 ∨ t.tcnt = (s.tcnt + 1) % 2 ^ s.cfg.cmpWidth)

/-! ### The whole machine -/

/-- R42, R43: which commands write which register. -/
def Obligations.FieldOwnership : Prop :=
  ∀ (i : Instr) (s t : State), exec i s = .next t →
    (t.head ≠ s.head ∨ t.storage ≠ s.storage ∨ t.ovfCount ≠ s.ovfCount → ∃ c, i = .rbStore c) ∧
    (t.tail ≠ s.tail → i = .rbRead ∨ i = .rbFlush) ∧
    (t.claimValid ≠ s.claimValid ∨ t.claimedPin ≠ s.claimedPin →
      (∃ pin, i = .toneClaim pin) ∨ (∃ pin f d, i = .toneStart pin f d) ∨
        ∃ pin, i = .toneStop pin) ∧
    (t.outPort ≠ s.outPort ∨ t.outMask ≠ s.outMask ∨ t.fullPeriod ≠ s.fullPeriod ∨
      t.portDir ≠ s.portDir → ∃ pin f d, i = .toneStart pin f d) ∧
    (t.cmp ≠ s.cmp ∨ t.extRem ≠ s.extRem ∨ t.tc ≠ s.tc ∨ t.tcnt ≠ s.tcnt →
      (∃ pin f d, i = .toneStart pin f d) ∨ i = .tmrTick ∨ i = .tmrMatch) ∧
    (t.cmpIE ≠ s.cmpIE →
      (∃ pin f d, i = .toneStart pin f d) ∨ (∃ pin, i = .toneStop pin) ∨ i = .tmrTick ∨
        i = .tmrMatch) ∧
    (t.portOut ≠ s.portOut → (∃ pin, i = .toneStop pin) ∨ i = .tmrTick ∨ i = .tmrMatch) ∧
    t.cfg = s.cfg ∧ t.refused = s.refused ∧ t.inbox = s.inbox

/-- R55: the reads without side effect and the idempotent commands give, when repeated, the state and
the response they gave; a repeated start also restarts the counter; RB_READ advances `tail` and so
consumes its byte; RB_STORE, TMR_TICK and TMR_MATCH are not idempotent. -/
def Obligations.Idempotency : Prop :=
  (∀ (i : Instr) (s t : State), i = .rbPeek ∨ i = .rbAvailable ∨ i = .rbOvfcount ∨ i = .toneStatus →
    exec i s = .next t → t.quiet = s.quiet ∧ exec i t = .next t) ∧
  (∀ (i : Instr) (s t : State),
    i = .rbFlush ∨ (∃ pin, i = .toneStop pin) ∨ (∃ pin, i = .toneClaim pin) ∨
      (∃ pin f d, i = .toneStart pin f d) →
    exec i s = .next t → exec i t = .next t) ∧
  (∀ (s t : State) (pin : PinId) (f : Frequency) (d : Duration) (k : Nat),
    s.canClaim pin = true → exec (.toneStart pin f d) s = .next t →
    exec (.toneStart pin f d) { t with tcnt := k } = .next t) ∧
  (∀ s : State, s.Inv → s.avail ≠ 0 →
    ∃ t, exec .rbRead s = .next t ∧ t.tail = nextIdx s.cfg s.tail ∧ t.avail + 1 = s.avail) ∧
  (∀ i : Instr, (∃ c, i = .rbStore c) ∨ i = .tmrTick ∨ i = .tmrMatch →
    ∃ s t u : State, exec i s = .next t ∧ exec i t = .next u ∧ u.quiet ≠ t.quiet)

/-- R207: the order of an RX step and a TMR step never changes the state they reach. -/
def Obligations.ReceiveAndTimerCommute : Prop :=
  ∀ (s : State) (c : Byte) (k : TimerCommand), s.Inv →
    ∃ t u, andThen (exec (.rbStore c) s) (exec k.instr) = .next t ∧
      andThen (exec k.instr s) (exec (.rbStore c)) = .next u ∧ t.quiet = u.quiet

/-- R44: every step keeps the invariant. -/
def Obligations.StepKeepsInvariant : Prop :=
  ∀ s t : State, s.Inv → step s = .next t → t.Inv

/-- R169: every step keeps the compare register on the chunk of the current half-period. -/
def Obligations.StepKeepsChunks : Prop :=
  ∀ s t : State, s.Inv → s.ChunkInv → step s = .next t → t.ChunkInv

/-- R200, R62: in a state that meets the invariant every step answers a next state. That a refused
command, which has no meaning (R11), completes in the marked state is the model's choice (log entry 8),
and so is the idle step while no event waits (log entry 1). -/
def Obligations.EveryStepCompletes : Prop :=
  ∀ s : State, s.Inv → ∃ t, step s = .next t

/-- R44 (i), 90 C3: a start with a computed count of 0 leaves the interrupt enabled on a count of 0. So
does the last toggle in the ELSE_BRANCH reading. -/
def Obligations.ZeroCountCanRun : Prop :=
  (∀ (s t : State) (pin : PinId) (f : Frequency) (d : Duration),
    s.canClaim pin = true → d ≠ 0#32 → 2 * f.toNat * d.toNat < s.cfg.msPerS →
    exec (.toneStart pin f d) s = .next t → t.cmpIE = true ∧ t.tc = 0#64) ∧
  (∃ t, step (State.reset.withFetchWord 64 0x80900001000001F3) = .next t ∧ t.cmpIE = true ∧
    t.tc = 0#64) ∧
  (∀ s t : State, s.cfg.endCheck = .elseBranch → s.tc = 1#64 → s.firesToggle .compare = true →
    exec .tmrMatch s = .next t → t.cmpIE = true ∧ t.tc = 0#64)

/-! ### The source's interleaved software (R66) -/

/-- R66: `available`, `peek` and `read`, run in sub-steps with receive events between them, give what
the block's atomic commands give in some order with those events. -/
def Obligations.SoftwareReadsLinearise : Prop :=
  ∀ (s : State) (window window' : List Byte), s.Inv →
    (∃ t a u, softAvailable window s = .next t ∧ exec .rbAvailable s = .next a ∧
      t.response = a.response ∧ storeAll window a = .next u ∧ t.quiet = u.quiet) ∧
    (∃ t a u, softPeek window s = .next t ∧ exec .rbPeek s = .next a ∧
      t.response = a.response ∧ storeAll window a = .next u ∧ t.quiet = u.quiet) ∧
    (s.head = s.tail → ∃ t a u, softRead window window' s = .next t ∧ exec .rbRead s = .next a ∧
      t.response = a.response ∧ storeAll (window ++ window') a = .next u ∧ t.quiet = u.quiet) ∧
    (s.head ≠ s.tail → softRead window window' s =
      andThen (storeAll (window ++ window') s) (exec .rbRead))

/-- R66: the software `flush` equals the atomic order in which the flush comes first, when the receive
events between its sub-steps drop no byte, and when the buffer was empty at the read of `head`. Either
way its `tail` ends at the `head` it read. -/
def Obligations.SoftwareFlushLinearises : Prop :=
  ∀ (s : State) (window : List Byte), s.Inv →
    (∃ t, softFlush window s = .next t ∧ t.tail = s.head ∧ t.response = some 0#32) ∧
    (s.head = s.tail ∨ window.length ≤ s.cfg.cap - 1 - s.avail →
      ∃ t a u, softFlush window s = .next t ∧ exec .rbFlush s = .next a ∧
        storeAll window a = .next u ∧ t.quiet = u.quiet)
end

