-- ==== Sys2Proof/Laws/Decode.lean ====
section
/-! SUPPORT. The fields of encoded words, the opcode map, and what decoding can answer. -/

namespace Sys2Proof

/-! ### Fields of a concatenation -/

theorem extract_above {a b : Nat} (x : BitVec a) (y : BitVec b) {start len : Nat} (h : b ≤ start) :
    (x ++ y).extractLsb' start len = x.extractLsb' (start - b) len := by
  ext k hk
  simp only [BitVec.getElem_extractLsb', BitVec.getLsbD_append]
  rw [if_neg (by omega)]
  congr 1
  omega

theorem extract_below {a b : Nat} (x : BitVec a) (y : BitVec b) {start len : Nat}
    (h : start + len ≤ b) : (x ++ y).extractLsb' start len = y.extractLsb' start len := by
  ext k hk
  simp only [BitVec.getElem_extractLsb', BitVec.getLsbD_append]
  rw [if_pos (by omega)]

theorem extract_all {a : Nat} (x : BitVec a) : x.extractLsb' 0 a = x := by
  ext k hk
  simp

theorem extract_high {a b : Nat} (x : BitVec a) (y : BitVec b) :
    (x ++ y).extractLsb' b a = x := by
  rw [extract_above x y le_rfl, Nat.sub_self, extract_all]

theorem extract_low {a b : Nat} (x : BitVec a) (y : BitVec b) : (x ++ y).extractLsb' 0 b = y := by
  rw [extract_below x y (by omega), extract_all]

/-! ### Fields of the four formats (R71, R72) -/

theorem formatN_op (op : BitVec 4) : fieldOp (formatN op) = op := extract_high op 0#60

theorem formatN_reserved (op : BitVec 4) : reservedBitsZero (formatN op) .n = true :=
  beq_iff_eq.2 (extract_low op 0#60)

theorem formatD_op (op : BitVec 4) (c : Byte) : fieldOp (formatD op c) = op :=
  (extract_above (op ++ 0#52) c (by decide)).trans (extract_high op 0#52)

theorem formatD_reserved (op : BitVec 4) (c : Byte) :
    reservedBitsZero (formatD op c) .d = true :=
  beq_iff_eq.2 ((extract_above (op ++ 0#52) c (by decide)).trans (extract_low op 0#52))

theorem formatD_data (op : BitVec 4) (c : Byte) : fieldData (formatD op c) = c :=
  extract_low (op ++ 0#52) c

theorem formatP_op (op : BitVec 4) (pin : PinId) : fieldOp (formatP op pin) = op :=
  (extract_above (op ++ pin) 0#52 (by decide)).trans (extract_high op pin)

theorem formatP_reserved (op : BitVec 4) (pin : PinId) :
    reservedBitsZero (formatP op pin) .p = true :=
  beq_iff_eq.2 (extract_low (op ++ pin) 0#52)

theorem formatP_pin (op : BitVec 4) (pin : PinId) : fieldPin (formatP op pin) = pin :=
  (extract_above (op ++ pin) 0#52 (by decide)).trans (extract_low op pin)

theorem formatT_op (op : BitVec 4) (pin : PinId) (f : Frequency) (d : Duration) :
    fieldOp (formatT op pin f d) = op :=
  (extract_above (op ++ pin ++ 0#4 ++ f) d (by decide)).trans <|
    (extract_above (op ++ pin ++ 0#4) f (by decide)).trans <|
      (extract_above (op ++ pin) 0#4 (by decide)).trans (extract_high op pin)

theorem formatT_reserved (op : BitVec 4) (pin : PinId) (f : Frequency) (d : Duration) :
    reservedBitsZero (formatT op pin f d) .t = true :=
  beq_iff_eq.2 <| (extract_above (op ++ pin ++ 0#4 ++ f) d (by decide)).trans <|
    (extract_above (op ++ pin ++ 0#4) f (by decide)).trans (extract_low (op ++ pin) 0#4)

theorem formatT_pin (op : BitVec 4) (pin : PinId) (f : Frequency) (d : Duration) :
    fieldPin (formatT op pin f d) = pin :=
  (extract_above (op ++ pin ++ 0#4 ++ f) d (by decide)).trans <|
    (extract_above (op ++ pin ++ 0#4) f (by decide)).trans <|
      (extract_above (op ++ pin) 0#4 (by decide)).trans (extract_low op pin)

theorem formatT_freq (op : BitVec 4) (pin : PinId) (f : Frequency) (d : Duration) :
    fieldFreq (formatT op pin f d) = f :=
  (extract_above (op ++ pin ++ 0#4 ++ f) d (by decide)).trans (extract_low (op ++ pin ++ 0#4) f)

theorem formatT_dur (op : BitVec 4) (pin : PinId) (f : Frequency) (d : Duration) :
    fieldDur (formatT op pin f d) = d :=
  extract_low (op ++ pin ++ 0#4 ++ f) d

/-! ### The opcode map (R74) -/

/-- Opcodes and mnemonics determine each other. -/
theorem mnemonicOf_eq_some (hasOvf : Bool) (op : BitVec 4) (m : Mnemonic) :
    mnemonicOf hasOvf op = some m ↔ op = m.opcode ∧ (m = .rbOvfcount → hasOvf = true) := by
  revert hasOvf op
  cases m <;> decide

/-- The reserved opcodes (R75). -/
theorem mnemonicOf_eq_none (hasOvf : Bool) (op : BitVec 4) :
    mnemonicOf hasOvf op = none ↔
      op = 0x0#4 ∨ op = 0xD#4 ∨ op = 0xE#4 ∨ op = 0xF#4 ∨ (op = 0x6#4 ∧ hasOvf = false) := by
  revert hasOvf op
  decide

/-! ### What decoding can answer (R83) -/

theorem decode_error_reservedOpcode {hasOvf : Bool} {port : Port} {w : CommandWord}
    (h : mnemonicOf hasOvf (fieldOp w) = none) : decode hasOvf port w = .error .reservedOpcode := by
  simp [decode, h]

theorem decode_of_mnemonic {hasOvf : Bool} {port : Port} {w : CommandWord} {m : Mnemonic}
    (h : mnemonicOf hasOvf (fieldOp w) = some m) :
    decode hasOvf port w =
      if port ≠ m.port then .error .wrongPort
      else if reservedBitsZero w m.format = false then .error .nonzeroReserved
      else .ok (m.withOperands (fieldData w) (fieldPin w) (fieldFreq w) (fieldDur w)) := by
  simp [decode, h]

/-- A decoded command: its opcode, its port, its must-be-zero bits and its operands. -/
theorem decode_eq_ok {hasOvf : Bool} {port : Port} {w : CommandWord} {i : Instr}
    (h : decode hasOvf port w = .ok i) :
    ∃ m, mnemonicOf hasOvf (fieldOp w) = some m ∧ port = m.port ∧
      reservedBitsZero w m.format = true ∧
      i = m.withOperands (fieldData w) (fieldPin w) (fieldFreq w) (fieldDur w) := by
  cases hm : mnemonicOf hasOvf (fieldOp w) with
  | none => rw [decode_error_reservedOpcode hm] at h; cases h
  | some m =>
    rw [decode_of_mnemonic hm] at h
    split_ifs at h with h1 h2
    cases h
    exact ⟨m, rfl, not_not.1 h1, by simpa using h2, rfl⟩

theorem withOperands_mnemonic (m : Mnemonic) (c : Byte) (pin : PinId) (f : Frequency)
    (d : Duration) : (m.withOperands c pin f d).mnemonic = m := by
  cases m <;> rfl

/-- Decoding never answers one of the two reasons that belong to the command rules (R203). -/
theorem decode_error_cases {hasOvf : Bool} {port : Port} {w : CommandWord} {r : RefuseReason}
    (h : decode hasOvf port w = .error r) :
    r = .reservedOpcode ∨ r = .wrongPort ∨ r = .nonzeroReserved := by
  unfold decode at h
  split at h
  · cases h; exact .inl rfl
  · split_ifs at h <;> cases h <;> simp

end Sys2Proof
end

