-- ==== Sys2Proof/Laws/Memory.lean ====
section
/-! SUPPORT. Storage: reading after writing, and the canonical form that every operation keeps. -/

namespace Sys2Proof.Machine

theorem Memory.read_nil (i : Nat) : Memory.read [] i = unwrittenByte := rfl

theorem Memory.read_pair (j : Nat) (w : Byte) (m : Memory) (i : Nat) :
    Memory.read ((j, w) :: m) i = if i = j then w else Memory.read m i := by
  unfold Memory.read
  by_cases h : i = j
  · simp [h]
  · simp [List.lookup_cons, beq_false_of_ne h, h]

/-- A slot below every listed one reads as an unlisted slot. -/
theorem Memory.read_below {m : Memory} {low cap i : Nat} (h : Memory.wfFrom low cap m = true)
    (hi : i < low) : Memory.read m i = unwrittenByte := by
  induction m generalizing low with
  | nil => rfl
  | cons e rest ih =>
    obtain ⟨j, w⟩ := e
    simp only [Memory.wfFrom, Bool.and_eq_true, decide_eq_true_eq] at h
    rw [Memory.read_pair, if_neg (by omega)]
    exact ih h.2 (by omega)

theorem Memory.read_cons (j : Nat) (w : Byte) {m : Memory} {cap : Nat}
    (h : Memory.wfFrom (j + 1) cap m = true) (i : Nat) :
    Memory.read (Memory.cons j w m) i = if i = j then w else Memory.read m i := by
  unfold Memory.cons
  split_ifs with hw hi hi
  · rw [hi, hw]
    exact Memory.read_below h (by omega)
  · rfl
  · rw [Memory.read_pair, if_pos hi]
  · rw [Memory.read_pair, if_neg hi]

theorem Memory.wfFrom_mono {m : Memory} {low low' cap : Nat} (h : Memory.wfFrom low cap m = true)
    (hl : low' ≤ low) : Memory.wfFrom low' cap m = true := by
  cases m with
  | nil => rfl
  | cons e rest =>
    obtain ⟨j, w⟩ := e
    simp only [Memory.wfFrom, Bool.and_eq_true, decide_eq_true_eq] at h ⊢
    exact ⟨⟨⟨by omega, h.1.1.2⟩, h.1.2⟩, h.2⟩

theorem Memory.wfFrom_cons {m : Memory} {low cap j : Nat} (w : Byte)
    (h : Memory.wfFrom (j + 1) cap m = true) (hl : low ≤ j) (hj : j < cap) :
    Memory.wfFrom low cap (Memory.cons j w m) = true := by
  unfold Memory.cons
  split_ifs with hw
  · exact Memory.wfFrom_mono h (by omega)
  · simp [Memory.wfFrom, h, hl, hj, hw]

/-- A write keeps the canonical form. -/
theorem Memory.wfFrom_write {m : Memory} {low cap i : Nat} (v : Byte)
    (h : Memory.wfFrom low cap m = true) (hl : low ≤ i) (hi : i < cap) :
    Memory.wfFrom low cap (m.write i v) = true := by
  induction m generalizing low with
  | nil => exact Memory.wfFrom_cons v rfl hl hi
  | cons e rest ih =>
    obtain ⟨j, w⟩ := e
    have hr := h
    simp only [Memory.wfFrom, Bool.and_eq_true, decide_eq_true_eq] at hr
    unfold Memory.write
    split_ifs with h1 h2
    · refine Memory.wfFrom_cons v ?_ hl hi
      simp only [Memory.wfFrom, Bool.and_eq_true, decide_eq_true_eq]
      exact ⟨⟨⟨by omega, hr.1.1.2⟩, hr.1.2⟩, hr.2⟩
    · subst h2
      exact Memory.wfFrom_cons v hr.2 hl hi
    · simp only [Memory.wfFrom, Bool.and_eq_true, decide_eq_true_eq]
      exact ⟨hr.1, ih hr.2 (by omega)⟩

/-- A write keeps the canonical form of a whole storage. -/
theorem Memory.wf_write {m : Memory} {cap i : Nat} (v : Byte) (h : Memory.wf cap m = true)
    (hi : i < cap) : Memory.wf cap (m.write i v) = true :=
  Memory.wfFrom_write v h (Nat.zero_le _) hi

/-- Reading after a write: the slot written gives the byte, every other slot what it gave before. -/
theorem Memory.read_write_from {m : Memory} {low cap : Nat} (h : Memory.wfFrom low cap m = true)
    (i : Nat) (v : Byte) (j : Nat) :
    (m.write i v).read j = if j = i then v else m.read j := by
  induction m generalizing low with
  | nil => exact Memory.read_cons i v (m := []) (cap := 0) rfl j
  | cons e rest ih =>
    obtain ⟨k, w⟩ := e
    have hr := h
    simp only [Memory.wfFrom, Bool.and_eq_true, decide_eq_true_eq] at hr
    have above : Memory.wfFrom (i + 1) cap ((k, w) :: rest) = true ∨ ¬ i < k := by
      by_cases h1 : i < k
      · left
        simp only [Memory.wfFrom, Bool.and_eq_true, decide_eq_true_eq]
        exact ⟨⟨⟨by omega, hr.1.1.2⟩, hr.1.2⟩, hr.2⟩
      · exact .inr h1
    unfold Memory.write
    by_cases h1 : i < k
    · rw [if_pos h1, Memory.read_cons _ _ (above.resolve_right (not_not.2 h1))]
    · rw [if_neg h1]
      by_cases h2 : i = k
      · subst h2
        rw [if_pos rfl, Memory.read_cons _ _ hr.2, Memory.read_pair]
        split_ifs <;> rfl
      · rw [if_neg h2, Memory.read_pair, ih hr.2, Memory.read_pair]
        by_cases h3 : j = k
        · rw [if_pos h3, if_pos h3, if_neg (by omega)]
        · rw [if_neg h3, if_neg h3]

theorem Memory.read_write {m : Memory} {cap : Nat} (h : Memory.wf cap m = true) (i : Nat) (v : Byte)
    (j : Nat) : (m.write i v).read j = if j = i then v else m.read j :=
  Memory.read_write_from h i v j

/-- A slot that a canonical list names does not read as an unlisted slot. -/
theorem Memory.read_head {m : Memory} {low cap j : Nat} {w : Byte}
    (h : Memory.wfFrom low cap ((j, w) :: m) = true) :
    Memory.read ((j, w) :: m) j = w ∧ w ≠ unwrittenByte := by
  simp only [Memory.wfFrom, Bool.and_eq_true, decide_eq_true_eq] at h
  exact ⟨by rw [Memory.read_pair, if_pos rfl], h.1.2⟩

/-- Equal contents are equal data: a canonical storage is determined by what its slots read as. -/
theorem Memory.ext_read {m m' : Memory} {low low' cap cap' : Nat}
    (h : Memory.wfFrom low cap m = true) (h' : Memory.wfFrom low' cap' m' = true)
    (hr : ∀ i, m.read i = m'.read i) : m = m' := by
  induction m generalizing m' low low' with
  | nil =>
    cases m' with
    | nil => rfl
    | cons e rest =>
      obtain ⟨j, w⟩ := e
      obtain ⟨h1, h2⟩ := Memory.read_head h'
      exact absurd ((hr j).trans h1).symm h2
  | cons e rest ih =>
    obtain ⟨j, w⟩ := e
    obtain ⟨h1, h2⟩ := Memory.read_head h
    cases m' with
    | nil => exact absurd ((hr j).symm.trans h1).symm h2
    | cons e' rest' =>
      obtain ⟨k, x⟩ := e'
      obtain ⟨h3, h4⟩ := Memory.read_head h'
      have hw := h
      have hw' := h'
      simp only [Memory.wfFrom, Bool.and_eq_true, decide_eq_true_eq] at hw hw'
      have hjk : j = k := by
        rcases Nat.lt_trichotomy j k with hlt | heq | hgt
        · have := hr j
          rw [h1, Memory.read_pair, if_neg (by omega), Memory.read_below hw'.2 (by omega)] at this
          exact absurd this h2
        · exact heq
        · have := hr k
          rw [h3, Memory.read_pair, if_neg (by omega), Memory.read_below hw.2 (by omega)] at this
          exact absurd this.symm h4
      subst hjk
      have hwx : w = x := h1.symm.trans ((hr j).trans h3)
      subst hwx
      congr 1
      refine ih hw.2 hw'.2 fun i => ?_
      have := hr i
      rw [Memory.read_pair, Memory.read_pair] at this
      by_cases hi : i = j
      · rw [Memory.read_below hw.2 (by omega), Memory.read_below hw'.2 (by omega)]
      · simpa [hi] using this

theorem Memory.wfFrom_ofBytes (bytes : List Byte) (i cap : Nat) (h : i + bytes.length ≤ cap) :
    Memory.wfFrom i cap (Memory.ofBytes i bytes) = true := by
  induction bytes generalizing i with
  | nil => rfl
  | cons v rest ih =>
    simp only [List.length_cons] at h
    exact Memory.wfFrom_cons v (ih (i + 1) (by omega)) le_rfl (by omega)

/-- Storage filled from the bytes of a reset is in canonical form. -/
theorem Memory.wf_ofBytes (bytes : List Byte) (cap : Nat) :
    Memory.wf cap (Memory.ofBytes 0 (bytes.take cap)) = true :=
  Memory.wfFrom_ofBytes _ 0 cap (by simp)

/-- What a slot reads as after a reset. -/
theorem Memory.read_ofBytes (bytes : List Byte) (i j : Nat) :
    (Memory.ofBytes i bytes).read (i + j) = bytes[j]?.getD unwrittenByte := by
  induction bytes generalizing i j with
  | nil => rfl
  | cons v rest ih =>
    have hw := Memory.wfFrom_ofBytes rest (i + 1) _ le_rfl
    rw [Memory.ofBytes, Memory.read_cons _ _ hw]
    cases j with
    | zero => simp
    | succ j => rw [if_neg (by omega), show i + (j + 1) = i + 1 + j by omega, ih]; simp

end Sys2Proof.Machine
end

