-- ==== Sys2Proof/Laws/State.lean ====
section
/-! SUPPORT. What each update of the state leaves in each field, all true by definition: no later proof
unfolds an update. -/

namespace Sys2Proof.Machine

variable (s : State)

section
@[simp] theorem State.beginCommand_cfg : (s.beginCommand).cfg = s.cfg := rfl
@[simp] theorem State.beginCommand_storage : (s.beginCommand).storage = s.storage := rfl
@[simp] theorem State.beginCommand_head : (s.beginCommand).head = s.head := rfl
@[simp] theorem State.beginCommand_tail : (s.beginCommand).tail = s.tail := rfl
@[simp] theorem State.beginCommand_ovfCount : (s.beginCommand).ovfCount = s.ovfCount := rfl
@[simp] theorem State.beginCommand_claimValid : (s.beginCommand).claimValid = s.claimValid := rfl
@[simp] theorem State.beginCommand_claimedPin : (s.beginCommand).claimedPin = s.claimedPin := rfl
@[simp] theorem State.beginCommand_outPort : (s.beginCommand).outPort = s.outPort := rfl
@[simp] theorem State.beginCommand_outMask : (s.beginCommand).outMask = s.outMask := rfl
@[simp] theorem State.beginCommand_cmp : (s.beginCommand).cmp = s.cmp := rfl
@[simp] theorem State.beginCommand_extRem : (s.beginCommand).extRem = s.extRem := rfl
@[simp] theorem State.beginCommand_fullPeriod : (s.beginCommand).fullPeriod = s.fullPeriod := rfl
@[simp] theorem State.beginCommand_tc : (s.beginCommand).tc = s.tc := rfl
@[simp] theorem State.beginCommand_cmpIE : (s.beginCommand).cmpIE = s.cmpIE := rfl
@[simp] theorem State.beginCommand_tcnt : (s.beginCommand).tcnt = s.tcnt := rfl
@[simp] theorem State.beginCommand_refused : (s.beginCommand).refused = s.refused := rfl
@[simp] theorem State.beginCommand_portOut : (s.beginCommand).portOut = s.portOut := rfl
@[simp] theorem State.beginCommand_portDir : (s.beginCommand).portDir = s.portDir := rfl
@[simp] theorem State.beginCommand_inbox : (s.beginCommand).inbox = s.inbox := rfl
@[simp] theorem State.beginCommand_response : (s.beginCommand).response = none := rfl
@[simp] theorem State.beginCommand_pinCalls : (s.beginCommand).pinCalls = [] := rfl
@[simp] theorem State.beginCommand_refusal : (s.beginCommand).refusal = none := rfl
end

section
variable (v : Response)
@[simp] theorem State.respond_cfg : (s.respond v).cfg = s.cfg := rfl
@[simp] theorem State.respond_storage : (s.respond v).storage = s.storage := rfl
@[simp] theorem State.respond_head : (s.respond v).head = s.head := rfl
@[simp] theorem State.respond_tail : (s.respond v).tail = s.tail := rfl
@[simp] theorem State.respond_ovfCount : (s.respond v).ovfCount = s.ovfCount := rfl
@[simp] theorem State.respond_claimValid : (s.respond v).claimValid = s.claimValid := rfl
@[simp] theorem State.respond_claimedPin : (s.respond v).claimedPin = s.claimedPin := rfl
@[simp] theorem State.respond_outPort : (s.respond v).outPort = s.outPort := rfl
@[simp] theorem State.respond_outMask : (s.respond v).outMask = s.outMask := rfl
@[simp] theorem State.respond_cmp : (s.respond v).cmp = s.cmp := rfl
@[simp] theorem State.respond_extRem : (s.respond v).extRem = s.extRem := rfl
@[simp] theorem State.respond_fullPeriod : (s.respond v).fullPeriod = s.fullPeriod := rfl
@[simp] theorem State.respond_tc : (s.respond v).tc = s.tc := rfl
@[simp] theorem State.respond_cmpIE : (s.respond v).cmpIE = s.cmpIE := rfl
@[simp] theorem State.respond_tcnt : (s.respond v).tcnt = s.tcnt := rfl
@[simp] theorem State.respond_refused : (s.respond v).refused = s.refused := rfl
@[simp] theorem State.respond_portOut : (s.respond v).portOut = s.portOut := rfl
@[simp] theorem State.respond_portDir : (s.respond v).portDir = s.portDir := rfl
@[simp] theorem State.respond_inbox : (s.respond v).inbox = s.inbox := rfl
@[simp] theorem State.respond_response : (s.respond v).response = some v := rfl
@[simp] theorem State.respond_pinCalls : (s.respond v).pinCalls = s.pinCalls := rfl
@[simp] theorem State.respond_refusal : (s.respond v).refusal = s.refusal := rfl
end

section
variable (m : Memory)
@[simp] theorem State.setStorage_cfg : (s.setStorage m).cfg = s.cfg := rfl
@[simp] theorem State.setStorage_storage : (s.setStorage m).storage = m := rfl
@[simp] theorem State.setStorage_head : (s.setStorage m).head = s.head := rfl
@[simp] theorem State.setStorage_tail : (s.setStorage m).tail = s.tail := rfl
@[simp] theorem State.setStorage_ovfCount : (s.setStorage m).ovfCount = s.ovfCount := rfl
@[simp] theorem State.setStorage_claimValid : (s.setStorage m).claimValid = s.claimValid := rfl
@[simp] theorem State.setStorage_claimedPin : (s.setStorage m).claimedPin = s.claimedPin := rfl
@[simp] theorem State.setStorage_outPort : (s.setStorage m).outPort = s.outPort := rfl
@[simp] theorem State.setStorage_outMask : (s.setStorage m).outMask = s.outMask := rfl
@[simp] theorem State.setStorage_cmp : (s.setStorage m).cmp = s.cmp := rfl
@[simp] theorem State.setStorage_extRem : (s.setStorage m).extRem = s.extRem := rfl
@[simp] theorem State.setStorage_fullPeriod : (s.setStorage m).fullPeriod = s.fullPeriod := rfl
@[simp] theorem State.setStorage_tc : (s.setStorage m).tc = s.tc := rfl
@[simp] theorem State.setStorage_cmpIE : (s.setStorage m).cmpIE = s.cmpIE := rfl
@[simp] theorem State.setStorage_tcnt : (s.setStorage m).tcnt = s.tcnt := rfl
@[simp] theorem State.setStorage_refused : (s.setStorage m).refused = s.refused := rfl
@[simp] theorem State.setStorage_portOut : (s.setStorage m).portOut = s.portOut := rfl
@[simp] theorem State.setStorage_portDir : (s.setStorage m).portDir = s.portDir := rfl
@[simp] theorem State.setStorage_inbox : (s.setStorage m).inbox = s.inbox := rfl
@[simp] theorem State.setStorage_response : (s.setStorage m).response = s.response := rfl
@[simp] theorem State.setStorage_pinCalls : (s.setStorage m).pinCalls = s.pinCalls := rfl
@[simp] theorem State.setStorage_refusal : (s.setStorage m).refusal = s.refusal := rfl
end

section
variable (i : Nat)
@[simp] theorem State.setHead_cfg : (s.setHead i).cfg = s.cfg := rfl
@[simp] theorem State.setHead_storage : (s.setHead i).storage = s.storage := rfl
@[simp] theorem State.setHead_head : (s.setHead i).head = i := rfl
@[simp] theorem State.setHead_tail : (s.setHead i).tail = s.tail := rfl
@[simp] theorem State.setHead_ovfCount : (s.setHead i).ovfCount = s.ovfCount := rfl
@[simp] theorem State.setHead_claimValid : (s.setHead i).claimValid = s.claimValid := rfl
@[simp] theorem State.setHead_claimedPin : (s.setHead i).claimedPin = s.claimedPin := rfl
@[simp] theorem State.setHead_outPort : (s.setHead i).outPort = s.outPort := rfl
@[simp] theorem State.setHead_outMask : (s.setHead i).outMask = s.outMask := rfl
@[simp] theorem State.setHead_cmp : (s.setHead i).cmp = s.cmp := rfl
@[simp] theorem State.setHead_extRem : (s.setHead i).extRem = s.extRem := rfl
@[simp] theorem State.setHead_fullPeriod : (s.setHead i).fullPeriod = s.fullPeriod := rfl
@[simp] theorem State.setHead_tc : (s.setHead i).tc = s.tc := rfl
@[simp] theorem State.setHead_cmpIE : (s.setHead i).cmpIE = s.cmpIE := rfl
@[simp] theorem State.setHead_tcnt : (s.setHead i).tcnt = s.tcnt := rfl
@[simp] theorem State.setHead_refused : (s.setHead i).refused = s.refused := rfl
@[simp] theorem State.setHead_portOut : (s.setHead i).portOut = s.portOut := rfl
@[simp] theorem State.setHead_portDir : (s.setHead i).portDir = s.portDir := rfl
@[simp] theorem State.setHead_inbox : (s.setHead i).inbox = s.inbox := rfl
@[simp] theorem State.setHead_response : (s.setHead i).response = s.response := rfl
@[simp] theorem State.setHead_pinCalls : (s.setHead i).pinCalls = s.pinCalls := rfl
@[simp] theorem State.setHead_refusal : (s.setHead i).refusal = s.refusal := rfl
end

section
variable (i : Nat)
@[simp] theorem State.setTail_cfg : (s.setTail i).cfg = s.cfg := rfl
@[simp] theorem State.setTail_storage : (s.setTail i).storage = s.storage := rfl
@[simp] theorem State.setTail_head : (s.setTail i).head = s.head := rfl
@[simp] theorem State.setTail_tail : (s.setTail i).tail = i := rfl
@[simp] theorem State.setTail_ovfCount : (s.setTail i).ovfCount = s.ovfCount := rfl
@[simp] theorem State.setTail_claimValid : (s.setTail i).claimValid = s.claimValid := rfl
@[simp] theorem State.setTail_claimedPin : (s.setTail i).claimedPin = s.claimedPin := rfl
@[simp] theorem State.setTail_outPort : (s.setTail i).outPort = s.outPort := rfl
@[simp] theorem State.setTail_outMask : (s.setTail i).outMask = s.outMask := rfl
@[simp] theorem State.setTail_cmp : (s.setTail i).cmp = s.cmp := rfl
@[simp] theorem State.setTail_extRem : (s.setTail i).extRem = s.extRem := rfl
@[simp] theorem State.setTail_fullPeriod : (s.setTail i).fullPeriod = s.fullPeriod := rfl
@[simp] theorem State.setTail_tc : (s.setTail i).tc = s.tc := rfl
@[simp] theorem State.setTail_cmpIE : (s.setTail i).cmpIE = s.cmpIE := rfl
@[simp] theorem State.setTail_tcnt : (s.setTail i).tcnt = s.tcnt := rfl
@[simp] theorem State.setTail_refused : (s.setTail i).refused = s.refused := rfl
@[simp] theorem State.setTail_portOut : (s.setTail i).portOut = s.portOut := rfl
@[simp] theorem State.setTail_portDir : (s.setTail i).portDir = s.portDir := rfl
@[simp] theorem State.setTail_inbox : (s.setTail i).inbox = s.inbox := rfl
@[simp] theorem State.setTail_response : (s.setTail i).response = s.response := rfl
@[simp] theorem State.setTail_pinCalls : (s.setTail i).pinCalls = s.pinCalls := rfl
@[simp] theorem State.setTail_refusal : (s.setTail i).refusal = s.refusal := rfl
end

section
variable (n : BitVec 32)
@[simp] theorem State.setOvfCount_cfg : (s.setOvfCount n).cfg = s.cfg := rfl
@[simp] theorem State.setOvfCount_storage : (s.setOvfCount n).storage = s.storage := rfl
@[simp] theorem State.setOvfCount_head : (s.setOvfCount n).head = s.head := rfl
@[simp] theorem State.setOvfCount_tail : (s.setOvfCount n).tail = s.tail := rfl
@[simp] theorem State.setOvfCount_ovfCount : (s.setOvfCount n).ovfCount = n := rfl
@[simp] theorem State.setOvfCount_claimValid : (s.setOvfCount n).claimValid = s.claimValid := rfl
@[simp] theorem State.setOvfCount_claimedPin : (s.setOvfCount n).claimedPin = s.claimedPin := rfl
@[simp] theorem State.setOvfCount_outPort : (s.setOvfCount n).outPort = s.outPort := rfl
@[simp] theorem State.setOvfCount_outMask : (s.setOvfCount n).outMask = s.outMask := rfl
@[simp] theorem State.setOvfCount_cmp : (s.setOvfCount n).cmp = s.cmp := rfl
@[simp] theorem State.setOvfCount_extRem : (s.setOvfCount n).extRem = s.extRem := rfl
@[simp] theorem State.setOvfCount_fullPeriod : (s.setOvfCount n).fullPeriod = s.fullPeriod := rfl
@[simp] theorem State.setOvfCount_tc : (s.setOvfCount n).tc = s.tc := rfl
@[simp] theorem State.setOvfCount_cmpIE : (s.setOvfCount n).cmpIE = s.cmpIE := rfl
@[simp] theorem State.setOvfCount_tcnt : (s.setOvfCount n).tcnt = s.tcnt := rfl
@[simp] theorem State.setOvfCount_refused : (s.setOvfCount n).refused = s.refused := rfl
@[simp] theorem State.setOvfCount_portOut : (s.setOvfCount n).portOut = s.portOut := rfl
@[simp] theorem State.setOvfCount_portDir : (s.setOvfCount n).portDir = s.portDir := rfl
@[simp] theorem State.setOvfCount_inbox : (s.setOvfCount n).inbox = s.inbox := rfl
@[simp] theorem State.setOvfCount_response : (s.setOvfCount n).response = s.response := rfl
@[simp] theorem State.setOvfCount_pinCalls : (s.setOvfCount n).pinCalls = s.pinCalls := rfl
@[simp] theorem State.setOvfCount_refusal : (s.setOvfCount n).refusal = s.refusal := rfl
end

section
variable (b : Bool) (p : PinId)
@[simp] theorem State.setClaim_cfg : (s.setClaim b p).cfg = s.cfg := rfl
@[simp] theorem State.setClaim_storage : (s.setClaim b p).storage = s.storage := rfl
@[simp] theorem State.setClaim_head : (s.setClaim b p).head = s.head := rfl
@[simp] theorem State.setClaim_tail : (s.setClaim b p).tail = s.tail := rfl
@[simp] theorem State.setClaim_ovfCount : (s.setClaim b p).ovfCount = s.ovfCount := rfl
@[simp] theorem State.setClaim_claimValid : (s.setClaim b p).claimValid = b := rfl
@[simp] theorem State.setClaim_claimedPin : (s.setClaim b p).claimedPin = p := rfl
@[simp] theorem State.setClaim_outPort : (s.setClaim b p).outPort = s.outPort := rfl
@[simp] theorem State.setClaim_outMask : (s.setClaim b p).outMask = s.outMask := rfl
@[simp] theorem State.setClaim_cmp : (s.setClaim b p).cmp = s.cmp := rfl
@[simp] theorem State.setClaim_extRem : (s.setClaim b p).extRem = s.extRem := rfl
@[simp] theorem State.setClaim_fullPeriod : (s.setClaim b p).fullPeriod = s.fullPeriod := rfl
@[simp] theorem State.setClaim_tc : (s.setClaim b p).tc = s.tc := rfl
@[simp] theorem State.setClaim_cmpIE : (s.setClaim b p).cmpIE = s.cmpIE := rfl
@[simp] theorem State.setClaim_tcnt : (s.setClaim b p).tcnt = s.tcnt := rfl
@[simp] theorem State.setClaim_refused : (s.setClaim b p).refused = s.refused := rfl
@[simp] theorem State.setClaim_portOut : (s.setClaim b p).portOut = s.portOut := rfl
@[simp] theorem State.setClaim_portDir : (s.setClaim b p).portDir = s.portDir := rfl
@[simp] theorem State.setClaim_inbox : (s.setClaim b p).inbox = s.inbox := rfl
@[simp] theorem State.setClaim_response : (s.setClaim b p).response = s.response := rfl
@[simp] theorem State.setClaim_pinCalls : (s.setClaim b p).pinCalls = s.pinCalls := rfl
@[simp] theorem State.setClaim_refusal : (s.setClaim b p).refusal = s.refusal := rfl
end

section
variable (l : PinLoc)
@[simp] theorem State.setOut_cfg : (s.setOut l).cfg = s.cfg := rfl
@[simp] theorem State.setOut_storage : (s.setOut l).storage = s.storage := rfl
@[simp] theorem State.setOut_head : (s.setOut l).head = s.head := rfl
@[simp] theorem State.setOut_tail : (s.setOut l).tail = s.tail := rfl
@[simp] theorem State.setOut_ovfCount : (s.setOut l).ovfCount = s.ovfCount := rfl
@[simp] theorem State.setOut_claimValid : (s.setOut l).claimValid = s.claimValid := rfl
@[simp] theorem State.setOut_claimedPin : (s.setOut l).claimedPin = s.claimedPin := rfl
@[simp] theorem State.setOut_outPort : (s.setOut l).outPort = l.port := rfl
@[simp] theorem State.setOut_outMask : (s.setOut l).outMask = l.mask := rfl
@[simp] theorem State.setOut_cmp : (s.setOut l).cmp = s.cmp := rfl
@[simp] theorem State.setOut_extRem : (s.setOut l).extRem = s.extRem := rfl
@[simp] theorem State.setOut_fullPeriod : (s.setOut l).fullPeriod = s.fullPeriod := rfl
@[simp] theorem State.setOut_tc : (s.setOut l).tc = s.tc := rfl
@[simp] theorem State.setOut_cmpIE : (s.setOut l).cmpIE = s.cmpIE := rfl
@[simp] theorem State.setOut_tcnt : (s.setOut l).tcnt = s.tcnt := rfl
@[simp] theorem State.setOut_refused : (s.setOut l).refused = s.refused := rfl
@[simp] theorem State.setOut_portOut : (s.setOut l).portOut = s.portOut := rfl
@[simp] theorem State.setOut_portDir : (s.setOut l).portDir = s.portDir := rfl
@[simp] theorem State.setOut_inbox : (s.setOut l).inbox = s.inbox := rfl
@[simp] theorem State.setOut_response : (s.setOut l).response = s.response := rfl
@[simp] theorem State.setOut_pinCalls : (s.setOut l).pinCalls = s.pinCalls := rfl
@[simp] theorem State.setOut_refusal : (s.setOut l).refusal = s.refusal := rfl
end

section
variable (p : Period)
@[simp] theorem State.setFullPeriod_cfg : (s.setFullPeriod p).cfg = s.cfg := rfl
@[simp] theorem State.setFullPeriod_storage : (s.setFullPeriod p).storage = s.storage := rfl
@[simp] theorem State.setFullPeriod_head : (s.setFullPeriod p).head = s.head := rfl
@[simp] theorem State.setFullPeriod_tail : (s.setFullPeriod p).tail = s.tail := rfl
@[simp] theorem State.setFullPeriod_ovfCount : (s.setFullPeriod p).ovfCount = s.ovfCount := rfl
@[simp] theorem State.setFullPeriod_claimValid : (s.setFullPeriod p).claimValid = s.claimValid := rfl
@[simp] theorem State.setFullPeriod_claimedPin : (s.setFullPeriod p).claimedPin = s.claimedPin := rfl
@[simp] theorem State.setFullPeriod_outPort : (s.setFullPeriod p).outPort = s.outPort := rfl
@[simp] theorem State.setFullPeriod_outMask : (s.setFullPeriod p).outMask = s.outMask := rfl
@[simp] theorem State.setFullPeriod_cmp : (s.setFullPeriod p).cmp = s.cmp := rfl
@[simp] theorem State.setFullPeriod_extRem : (s.setFullPeriod p).extRem = s.extRem := rfl
@[simp] theorem State.setFullPeriod_fullPeriod : (s.setFullPeriod p).fullPeriod = p := rfl
@[simp] theorem State.setFullPeriod_tc : (s.setFullPeriod p).tc = s.tc := rfl
@[simp] theorem State.setFullPeriod_cmpIE : (s.setFullPeriod p).cmpIE = s.cmpIE := rfl
@[simp] theorem State.setFullPeriod_tcnt : (s.setFullPeriod p).tcnt = s.tcnt := rfl
@[simp] theorem State.setFullPeriod_refused : (s.setFullPeriod p).refused = s.refused := rfl
@[simp] theorem State.setFullPeriod_portOut : (s.setFullPeriod p).portOut = s.portOut := rfl
@[simp] theorem State.setFullPeriod_portDir : (s.setFullPeriod p).portDir = s.portDir := rfl
@[simp] theorem State.setFullPeriod_inbox : (s.setFullPeriod p).inbox = s.inbox := rfl
@[simp] theorem State.setFullPeriod_response : (s.setFullPeriod p).response = s.response := rfl
@[simp] theorem State.setFullPeriod_pinCalls : (s.setFullPeriod p).pinCalls = s.pinCalls := rfl
@[simp] theorem State.setFullPeriod_refusal : (s.setFullPeriod p).refusal = s.refusal := rfl
end

section
variable (c : Nat) (r : Period)
@[simp] theorem State.setChunk_cfg : (s.setChunk c r).cfg = s.cfg := rfl
@[simp] theorem State.setChunk_storage : (s.setChunk c r).storage = s.storage := rfl
@[simp] theorem State.setChunk_head : (s.setChunk c r).head = s.head := rfl
@[simp] theorem State.setChunk_tail : (s.setChunk c r).tail = s.tail := rfl
@[simp] theorem State.setChunk_ovfCount : (s.setChunk c r).ovfCount = s.ovfCount := rfl
@[simp] theorem State.setChunk_claimValid : (s.setChunk c r).claimValid = s.claimValid := rfl
@[simp] theorem State.setChunk_claimedPin : (s.setChunk c r).claimedPin = s.claimedPin := rfl
@[simp] theorem State.setChunk_outPort : (s.setChunk c r).outPort = s.outPort := rfl
@[simp] theorem State.setChunk_outMask : (s.setChunk c r).outMask = s.outMask := rfl
@[simp] theorem State.setChunk_cmp : (s.setChunk c r).cmp = c := rfl
@[simp] theorem State.setChunk_extRem : (s.setChunk c r).extRem = r := rfl
@[simp] theorem State.setChunk_fullPeriod : (s.setChunk c r).fullPeriod = s.fullPeriod := rfl
@[simp] theorem State.setChunk_tc : (s.setChunk c r).tc = s.tc := rfl
@[simp] theorem State.setChunk_cmpIE : (s.setChunk c r).cmpIE = s.cmpIE := rfl
@[simp] theorem State.setChunk_tcnt : (s.setChunk c r).tcnt = s.tcnt := rfl
@[simp] theorem State.setChunk_refused : (s.setChunk c r).refused = s.refused := rfl
@[simp] theorem State.setChunk_portOut : (s.setChunk c r).portOut = s.portOut := rfl
@[simp] theorem State.setChunk_portDir : (s.setChunk c r).portDir = s.portDir := rfl
@[simp] theorem State.setChunk_inbox : (s.setChunk c r).inbox = s.inbox := rfl
@[simp] theorem State.setChunk_response : (s.setChunk c r).response = s.response := rfl
@[simp] theorem State.setChunk_pinCalls : (s.setChunk c r).pinCalls = s.pinCalls := rfl
@[simp] theorem State.setChunk_refusal : (s.setChunk c r).refusal = s.refusal := rfl
end

section
variable (r : Period)
@[simp] theorem State.setExtRem_cfg : (s.setExtRem r).cfg = s.cfg := rfl
@[simp] theorem State.setExtRem_storage : (s.setExtRem r).storage = s.storage := rfl
@[simp] theorem State.setExtRem_head : (s.setExtRem r).head = s.head := rfl
@[simp] theorem State.setExtRem_tail : (s.setExtRem r).tail = s.tail := rfl
@[simp] theorem State.setExtRem_ovfCount : (s.setExtRem r).ovfCount = s.ovfCount := rfl
@[simp] theorem State.setExtRem_claimValid : (s.setExtRem r).claimValid = s.claimValid := rfl
@[simp] theorem State.setExtRem_claimedPin : (s.setExtRem r).claimedPin = s.claimedPin := rfl
@[simp] theorem State.setExtRem_outPort : (s.setExtRem r).outPort = s.outPort := rfl
@[simp] theorem State.setExtRem_outMask : (s.setExtRem r).outMask = s.outMask := rfl
@[simp] theorem State.setExtRem_cmp : (s.setExtRem r).cmp = s.cmp := rfl
@[simp] theorem State.setExtRem_extRem : (s.setExtRem r).extRem = r := rfl
@[simp] theorem State.setExtRem_fullPeriod : (s.setExtRem r).fullPeriod = s.fullPeriod := rfl
@[simp] theorem State.setExtRem_tc : (s.setExtRem r).tc = s.tc := rfl
@[simp] theorem State.setExtRem_cmpIE : (s.setExtRem r).cmpIE = s.cmpIE := rfl
@[simp] theorem State.setExtRem_tcnt : (s.setExtRem r).tcnt = s.tcnt := rfl
@[simp] theorem State.setExtRem_refused : (s.setExtRem r).refused = s.refused := rfl
@[simp] theorem State.setExtRem_portOut : (s.setExtRem r).portOut = s.portOut := rfl
@[simp] theorem State.setExtRem_portDir : (s.setExtRem r).portDir = s.portDir := rfl
@[simp] theorem State.setExtRem_inbox : (s.setExtRem r).inbox = s.inbox := rfl
@[simp] theorem State.setExtRem_response : (s.setExtRem r).response = s.response := rfl
@[simp] theorem State.setExtRem_pinCalls : (s.setExtRem r).pinCalls = s.pinCalls := rfl
@[simp] theorem State.setExtRem_refusal : (s.setExtRem r).refusal = s.refusal := rfl
end

section
variable (n : Countdown)
@[simp] theorem State.setTc_cfg : (s.setTc n).cfg = s.cfg := rfl
@[simp] theorem State.setTc_storage : (s.setTc n).storage = s.storage := rfl
@[simp] theorem State.setTc_head : (s.setTc n).head = s.head := rfl
@[simp] theorem State.setTc_tail : (s.setTc n).tail = s.tail := rfl
@[simp] theorem State.setTc_ovfCount : (s.setTc n).ovfCount = s.ovfCount := rfl
@[simp] theorem State.setTc_claimValid : (s.setTc n).claimValid = s.claimValid := rfl
@[simp] theorem State.setTc_claimedPin : (s.setTc n).claimedPin = s.claimedPin := rfl
@[simp] theorem State.setTc_outPort : (s.setTc n).outPort = s.outPort := rfl
@[simp] theorem State.setTc_outMask : (s.setTc n).outMask = s.outMask := rfl
@[simp] theorem State.setTc_cmp : (s.setTc n).cmp = s.cmp := rfl
@[simp] theorem State.setTc_extRem : (s.setTc n).extRem = s.extRem := rfl
@[simp] theorem State.setTc_fullPeriod : (s.setTc n).fullPeriod = s.fullPeriod := rfl
@[simp] theorem State.setTc_tc : (s.setTc n).tc = n := rfl
@[simp] theorem State.setTc_cmpIE : (s.setTc n).cmpIE = s.cmpIE := rfl
@[simp] theorem State.setTc_tcnt : (s.setTc n).tcnt = s.tcnt := rfl
@[simp] theorem State.setTc_refused : (s.setTc n).refused = s.refused := rfl
@[simp] theorem State.setTc_portOut : (s.setTc n).portOut = s.portOut := rfl
@[simp] theorem State.setTc_portDir : (s.setTc n).portDir = s.portDir := rfl
@[simp] theorem State.setTc_inbox : (s.setTc n).inbox = s.inbox := rfl
@[simp] theorem State.setTc_response : (s.setTc n).response = s.response := rfl
@[simp] theorem State.setTc_pinCalls : (s.setTc n).pinCalls = s.pinCalls := rfl
@[simp] theorem State.setTc_refusal : (s.setTc n).refusal = s.refusal := rfl
end

section
variable (n : Nat)
@[simp] theorem State.setTcnt_cfg : (s.setTcnt n).cfg = s.cfg := rfl
@[simp] theorem State.setTcnt_storage : (s.setTcnt n).storage = s.storage := rfl
@[simp] theorem State.setTcnt_head : (s.setTcnt n).head = s.head := rfl
@[simp] theorem State.setTcnt_tail : (s.setTcnt n).tail = s.tail := rfl
@[simp] theorem State.setTcnt_ovfCount : (s.setTcnt n).ovfCount = s.ovfCount := rfl
@[simp] theorem State.setTcnt_claimValid : (s.setTcnt n).claimValid = s.claimValid := rfl
@[simp] theorem State.setTcnt_claimedPin : (s.setTcnt n).claimedPin = s.claimedPin := rfl
@[simp] theorem State.setTcnt_outPort : (s.setTcnt n).outPort = s.outPort := rfl
@[simp] theorem State.setTcnt_outMask : (s.setTcnt n).outMask = s.outMask := rfl
@[simp] theorem State.setTcnt_cmp : (s.setTcnt n).cmp = s.cmp := rfl
@[simp] theorem State.setTcnt_extRem : (s.setTcnt n).extRem = s.extRem := rfl
@[simp] theorem State.setTcnt_fullPeriod : (s.setTcnt n).fullPeriod = s.fullPeriod := rfl
@[simp] theorem State.setTcnt_tc : (s.setTcnt n).tc = s.tc := rfl
@[simp] theorem State.setTcnt_cmpIE : (s.setTcnt n).cmpIE = s.cmpIE := rfl
@[simp] theorem State.setTcnt_tcnt : (s.setTcnt n).tcnt = n := rfl
@[simp] theorem State.setTcnt_refused : (s.setTcnt n).refused = s.refused := rfl
@[simp] theorem State.setTcnt_portOut : (s.setTcnt n).portOut = s.portOut := rfl
@[simp] theorem State.setTcnt_portDir : (s.setTcnt n).portDir = s.portDir := rfl
@[simp] theorem State.setTcnt_inbox : (s.setTcnt n).inbox = s.inbox := rfl
@[simp] theorem State.setTcnt_response : (s.setTcnt n).response = s.response := rfl
@[simp] theorem State.setTcnt_pinCalls : (s.setTcnt n).pinCalls = s.pinCalls := rfl
@[simp] theorem State.setTcnt_refusal : (s.setTcnt n).refusal = s.refusal := rfl
end

section
variable (b : Bool)
@[simp] theorem State.setCmpIE_cfg : (s.setCmpIE b).cfg = s.cfg := rfl
@[simp] theorem State.setCmpIE_storage : (s.setCmpIE b).storage = s.storage := rfl
@[simp] theorem State.setCmpIE_head : (s.setCmpIE b).head = s.head := rfl
@[simp] theorem State.setCmpIE_tail : (s.setCmpIE b).tail = s.tail := rfl
@[simp] theorem State.setCmpIE_ovfCount : (s.setCmpIE b).ovfCount = s.ovfCount := rfl
@[simp] theorem State.setCmpIE_claimValid : (s.setCmpIE b).claimValid = s.claimValid := rfl
@[simp] theorem State.setCmpIE_claimedPin : (s.setCmpIE b).claimedPin = s.claimedPin := rfl
@[simp] theorem State.setCmpIE_outPort : (s.setCmpIE b).outPort = s.outPort := rfl
@[simp] theorem State.setCmpIE_outMask : (s.setCmpIE b).outMask = s.outMask := rfl
@[simp] theorem State.setCmpIE_cmp : (s.setCmpIE b).cmp = s.cmp := rfl
@[simp] theorem State.setCmpIE_extRem : (s.setCmpIE b).extRem = s.extRem := rfl
@[simp] theorem State.setCmpIE_fullPeriod : (s.setCmpIE b).fullPeriod = s.fullPeriod := rfl
@[simp] theorem State.setCmpIE_tc : (s.setCmpIE b).tc = s.tc := rfl
@[simp] theorem State.setCmpIE_cmpIE : (s.setCmpIE b).cmpIE = b := rfl
@[simp] theorem State.setCmpIE_tcnt : (s.setCmpIE b).tcnt = s.tcnt := rfl
@[simp] theorem State.setCmpIE_refused : (s.setCmpIE b).refused = s.refused := rfl
@[simp] theorem State.setCmpIE_portOut : (s.setCmpIE b).portOut = s.portOut := rfl
@[simp] theorem State.setCmpIE_portDir : (s.setCmpIE b).portDir = s.portDir := rfl
@[simp] theorem State.setCmpIE_inbox : (s.setCmpIE b).inbox = s.inbox := rfl
@[simp] theorem State.setCmpIE_response : (s.setCmpIE b).response = s.response := rfl
@[simp] theorem State.setCmpIE_pinCalls : (s.setCmpIE b).pinCalls = s.pinCalls := rfl
@[simp] theorem State.setCmpIE_refusal : (s.setCmpIE b).refusal = s.refusal := rfl
end

section
variable (l : List Byte)
@[simp] theorem State.setPortOut_cfg : (s.setPortOut l).cfg = s.cfg := rfl
@[simp] theorem State.setPortOut_storage : (s.setPortOut l).storage = s.storage := rfl
@[simp] theorem State.setPortOut_head : (s.setPortOut l).head = s.head := rfl
@[simp] theorem State.setPortOut_tail : (s.setPortOut l).tail = s.tail := rfl
@[simp] theorem State.setPortOut_ovfCount : (s.setPortOut l).ovfCount = s.ovfCount := rfl
@[simp] theorem State.setPortOut_claimValid : (s.setPortOut l).claimValid = s.claimValid := rfl
@[simp] theorem State.setPortOut_claimedPin : (s.setPortOut l).claimedPin = s.claimedPin := rfl
@[simp] theorem State.setPortOut_outPort : (s.setPortOut l).outPort = s.outPort := rfl
@[simp] theorem State.setPortOut_outMask : (s.setPortOut l).outMask = s.outMask := rfl
@[simp] theorem State.setPortOut_cmp : (s.setPortOut l).cmp = s.cmp := rfl
@[simp] theorem State.setPortOut_extRem : (s.setPortOut l).extRem = s.extRem := rfl
@[simp] theorem State.setPortOut_fullPeriod : (s.setPortOut l).fullPeriod = s.fullPeriod := rfl
@[simp] theorem State.setPortOut_tc : (s.setPortOut l).tc = s.tc := rfl
@[simp] theorem State.setPortOut_cmpIE : (s.setPortOut l).cmpIE = s.cmpIE := rfl
@[simp] theorem State.setPortOut_tcnt : (s.setPortOut l).tcnt = s.tcnt := rfl
@[simp] theorem State.setPortOut_refused : (s.setPortOut l).refused = s.refused := rfl
@[simp] theorem State.setPortOut_portOut : (s.setPortOut l).portOut = l := rfl
@[simp] theorem State.setPortOut_portDir : (s.setPortOut l).portDir = s.portDir := rfl
@[simp] theorem State.setPortOut_inbox : (s.setPortOut l).inbox = s.inbox := rfl
@[simp] theorem State.setPortOut_response : (s.setPortOut l).response = s.response := rfl
@[simp] theorem State.setPortOut_pinCalls : (s.setPortOut l).pinCalls = s.pinCalls := rfl
@[simp] theorem State.setPortOut_refusal : (s.setPortOut l).refusal = s.refusal := rfl
end

section
variable (l : List Byte)
@[simp] theorem State.setPortDir_cfg : (s.setPortDir l).cfg = s.cfg := rfl
@[simp] theorem State.setPortDir_storage : (s.setPortDir l).storage = s.storage := rfl
@[simp] theorem State.setPortDir_head : (s.setPortDir l).head = s.head := rfl
@[simp] theorem State.setPortDir_tail : (s.setPortDir l).tail = s.tail := rfl
@[simp] theorem State.setPortDir_ovfCount : (s.setPortDir l).ovfCount = s.ovfCount := rfl
@[simp] theorem State.setPortDir_claimValid : (s.setPortDir l).claimValid = s.claimValid := rfl
@[simp] theorem State.setPortDir_claimedPin : (s.setPortDir l).claimedPin = s.claimedPin := rfl
@[simp] theorem State.setPortDir_outPort : (s.setPortDir l).outPort = s.outPort := rfl
@[simp] theorem State.setPortDir_outMask : (s.setPortDir l).outMask = s.outMask := rfl
@[simp] theorem State.setPortDir_cmp : (s.setPortDir l).cmp = s.cmp := rfl
@[simp] theorem State.setPortDir_extRem : (s.setPortDir l).extRem = s.extRem := rfl
@[simp] theorem State.setPortDir_fullPeriod : (s.setPortDir l).fullPeriod = s.fullPeriod := rfl
@[simp] theorem State.setPortDir_tc : (s.setPortDir l).tc = s.tc := rfl
@[simp] theorem State.setPortDir_cmpIE : (s.setPortDir l).cmpIE = s.cmpIE := rfl
@[simp] theorem State.setPortDir_tcnt : (s.setPortDir l).tcnt = s.tcnt := rfl
@[simp] theorem State.setPortDir_refused : (s.setPortDir l).refused = s.refused := rfl
@[simp] theorem State.setPortDir_portOut : (s.setPortDir l).portOut = s.portOut := rfl
@[simp] theorem State.setPortDir_portDir : (s.setPortDir l).portDir = l := rfl
@[simp] theorem State.setPortDir_inbox : (s.setPortDir l).inbox = s.inbox := rfl
@[simp] theorem State.setPortDir_response : (s.setPortDir l).response = s.response := rfl
@[simp] theorem State.setPortDir_pinCalls : (s.setPortDir l).pinCalls = s.pinCalls := rfl
@[simp] theorem State.setPortDir_refusal : (s.setPortDir l).refusal = s.refusal := rfl
end

section
variable (c : PinCall)
@[simp] theorem State.logCall_cfg : (s.logCall c).cfg = s.cfg := rfl
@[simp] theorem State.logCall_storage : (s.logCall c).storage = s.storage := rfl
@[simp] theorem State.logCall_head : (s.logCall c).head = s.head := rfl
@[simp] theorem State.logCall_tail : (s.logCall c).tail = s.tail := rfl
@[simp] theorem State.logCall_ovfCount : (s.logCall c).ovfCount = s.ovfCount := rfl
@[simp] theorem State.logCall_claimValid : (s.logCall c).claimValid = s.claimValid := rfl
@[simp] theorem State.logCall_claimedPin : (s.logCall c).claimedPin = s.claimedPin := rfl
@[simp] theorem State.logCall_outPort : (s.logCall c).outPort = s.outPort := rfl
@[simp] theorem State.logCall_outMask : (s.logCall c).outMask = s.outMask := rfl
@[simp] theorem State.logCall_cmp : (s.logCall c).cmp = s.cmp := rfl
@[simp] theorem State.logCall_extRem : (s.logCall c).extRem = s.extRem := rfl
@[simp] theorem State.logCall_fullPeriod : (s.logCall c).fullPeriod = s.fullPeriod := rfl
@[simp] theorem State.logCall_tc : (s.logCall c).tc = s.tc := rfl
@[simp] theorem State.logCall_cmpIE : (s.logCall c).cmpIE = s.cmpIE := rfl
@[simp] theorem State.logCall_tcnt : (s.logCall c).tcnt = s.tcnt := rfl
@[simp] theorem State.logCall_refused : (s.logCall c).refused = s.refused := rfl
@[simp] theorem State.logCall_portOut : (s.logCall c).portOut = s.portOut := rfl
@[simp] theorem State.logCall_portDir : (s.logCall c).portDir = s.portDir := rfl
@[simp] theorem State.logCall_inbox : (s.logCall c).inbox = s.inbox := rfl
@[simp] theorem State.logCall_response : (s.logCall c).response = s.response := rfl
@[simp] theorem State.logCall_pinCalls : (s.logCall c).pinCalls = s.pinCalls ++ [c] := rfl
@[simp] theorem State.logCall_refusal : (s.logCall c).refusal = s.refusal := rfl
end

section
variable (l : List Event)
@[simp] theorem State.setInbox_cfg : (s.setInbox l).cfg = s.cfg := rfl
@[simp] theorem State.setInbox_storage : (s.setInbox l).storage = s.storage := rfl
@[simp] theorem State.setInbox_head : (s.setInbox l).head = s.head := rfl
@[simp] theorem State.setInbox_tail : (s.setInbox l).tail = s.tail := rfl
@[simp] theorem State.setInbox_ovfCount : (s.setInbox l).ovfCount = s.ovfCount := rfl
@[simp] theorem State.setInbox_claimValid : (s.setInbox l).claimValid = s.claimValid := rfl
@[simp] theorem State.setInbox_claimedPin : (s.setInbox l).claimedPin = s.claimedPin := rfl
@[simp] theorem State.setInbox_outPort : (s.setInbox l).outPort = s.outPort := rfl
@[simp] theorem State.setInbox_outMask : (s.setInbox l).outMask = s.outMask := rfl
@[simp] theorem State.setInbox_cmp : (s.setInbox l).cmp = s.cmp := rfl
@[simp] theorem State.setInbox_extRem : (s.setInbox l).extRem = s.extRem := rfl
@[simp] theorem State.setInbox_fullPeriod : (s.setInbox l).fullPeriod = s.fullPeriod := rfl
@[simp] theorem State.setInbox_tc : (s.setInbox l).tc = s.tc := rfl
@[simp] theorem State.setInbox_cmpIE : (s.setInbox l).cmpIE = s.cmpIE := rfl
@[simp] theorem State.setInbox_tcnt : (s.setInbox l).tcnt = s.tcnt := rfl
@[simp] theorem State.setInbox_refused : (s.setInbox l).refused = s.refused := rfl
@[simp] theorem State.setInbox_portOut : (s.setInbox l).portOut = s.portOut := rfl
@[simp] theorem State.setInbox_portDir : (s.setInbox l).portDir = s.portDir := rfl
@[simp] theorem State.setInbox_inbox : (s.setInbox l).inbox = l := rfl
@[simp] theorem State.setInbox_response : (s.setInbox l).response = s.response := rfl
@[simp] theorem State.setInbox_pinCalls : (s.setInbox l).pinCalls = s.pinCalls := rfl
@[simp] theorem State.setInbox_refusal : (s.setInbox l).refusal = s.refusal := rfl
end

section
variable (r : RefuseReason)
@[simp] theorem State.markRefused_cfg : (s.markRefused r).cfg = s.cfg := rfl
@[simp] theorem State.markRefused_storage : (s.markRefused r).storage = s.storage := rfl
@[simp] theorem State.markRefused_head : (s.markRefused r).head = s.head := rfl
@[simp] theorem State.markRefused_tail : (s.markRefused r).tail = s.tail := rfl
@[simp] theorem State.markRefused_ovfCount : (s.markRefused r).ovfCount = s.ovfCount := rfl
@[simp] theorem State.markRefused_claimValid : (s.markRefused r).claimValid = s.claimValid := rfl
@[simp] theorem State.markRefused_claimedPin : (s.markRefused r).claimedPin = s.claimedPin := rfl
@[simp] theorem State.markRefused_outPort : (s.markRefused r).outPort = s.outPort := rfl
@[simp] theorem State.markRefused_outMask : (s.markRefused r).outMask = s.outMask := rfl
@[simp] theorem State.markRefused_cmp : (s.markRefused r).cmp = s.cmp := rfl
@[simp] theorem State.markRefused_extRem : (s.markRefused r).extRem = s.extRem := rfl
@[simp] theorem State.markRefused_fullPeriod : (s.markRefused r).fullPeriod = s.fullPeriod := rfl
@[simp] theorem State.markRefused_tc : (s.markRefused r).tc = s.tc := rfl
@[simp] theorem State.markRefused_cmpIE : (s.markRefused r).cmpIE = s.cmpIE := rfl
@[simp] theorem State.markRefused_tcnt : (s.markRefused r).tcnt = s.tcnt := rfl
@[simp] theorem State.markRefused_refused : (s.markRefused r).refused = true := rfl
@[simp] theorem State.markRefused_portOut : (s.markRefused r).portOut = s.portOut := rfl
@[simp] theorem State.markRefused_portDir : (s.markRefused r).portDir = s.portDir := rfl
@[simp] theorem State.markRefused_inbox : (s.markRefused r).inbox = s.inbox := rfl
@[simp] theorem State.markRefused_response : (s.markRefused r).response = none := rfl
@[simp] theorem State.markRefused_pinCalls : (s.markRefused r).pinCalls = [] := rfl
@[simp] theorem State.markRefused_refusal : (s.markRefused r).refusal = some r := rfl
end

end Sys2Proof.Machine
end

