-- ==== Sys2Proof/Laws/Ops.lean ====
section
/-! SUPPORT. What each shared operation can do, said once: proofs cite these and do not unfold the
operation. -/

namespace Sys2Proof.Machine

/-! ### Sequencing -/

@[simp] theorem andThen_next (s : State) (k : State → Result) : andThen (.next s) k = k s := rfl

@[simp] theorem andThen_fault (f : Fault) (k : State → Result) :
    andThen (.fault f) k = .fault f := rfl

@[simp] theorem andThen_refused (x : Refusal) (k : State → Result) :
    andThen (.refused x) k = .refused x := rfl

/-- A sequence that completes: both effects complete. -/
theorem andThen_eq_next {r : Result} {k : State → Result} {t : State} :
    andThen r k = .next t ↔ ∃ s, r = .next s ∧ k s = .next t := by
  cases r <;> simp [andThen]

theorem andThen_assoc (r : Result) (k l : State → Result) :
    andThen (andThen r k) l = andThen r fun s => andThen (k s) l := by
  cases r <;> rfl

/-- A refusal is settled into the marked state. -/
@[simp] theorem settle_refuse (s : State) (reason : RefuseReason) :
    settle s (refuse reason) = .next (s.markRefused reason) := rfl

@[simp] theorem settle_next (s t : State) : settle s (.next t) = .next t := rfl

@[simp] theorem settle_fault (s : State) (f : Fault) : settle s (.fault f) = .fault f := rfl

/-- What settling can answer with: the outcome's own next state, or the marked state. -/
theorem settle_eq_next {s t : State} {r : Result} (h : settle s r = .next t) :
    r = .next t ∨ ∃ reason, r = refuse reason ∧ t = s.markRefused reason := by
  unfold settle at h
  split at h
  · rename_i reason
    cases h
    exact .inr ⟨reason, rfl, rfl⟩
  · exact .inl h

/-! ### The compare register's range -/

theorem cmpMax_succ (cfg : Config) : cfg.cmpMax + 1 = 2 ^ cfg.cmpWidth :=
  Nat.sub_add_cancel Nat.one_le_two_pow

theorem fitsCmp_iff (cfg : Config) (p : Period) : fitsCmp cfg p = true ↔ p.toNat ≤ cfg.cmpMax :=
  decide_eq_true_iff

theorem fitsCmp_eq_false_iff (cfg : Config) (p : Period) :
    fitsCmp cfg p = false ↔ cfg.cmpMax < p.toNat :=
  decide_eq_false_iff_not.trans Nat.not_le

/-! ### Countdown -/

/-- Duration 0 is the unbounded tone (R134). -/
@[simp] theorem countdown_zero (cfg : Config) (f : Frequency) :
    countdown cfg f 0#32 = cfg.unbounded := rfl

theorem countdown_of_ne {cfg : Config} {f : Frequency} {d : Duration} (h : d ≠ 0#32) :
    countdown cfg f d = BitVec.ofNat 64 (2 * f.toNat * d.toNat / cfg.msPerS) :=
  if_pos (Nat.pos_of_ne_zero fun h0 => h (BitVec.eq_of_toNat_eq h0))

/-! ### Index arithmetic -/

theorem nextIdx_lt {cfg : Config} (h : 0 < cfg.cap) (i : Nat) : nextIdx cfg i < cfg.cap :=
  Nat.mod_lt _ h

/-- The available count without integers: `head` is `avail` slots past `tail`. -/
theorem availOf_eq {cfg : Config} {head tail : Nat} (hh : head < cfg.cap) (ht : tail < cfg.cap) :
    availOf cfg head tail = if tail ≤ head then head - tail else cfg.cap + head - tail := by
  unfold availOf
  split_ifs with h
  · have : ((cfg.cap : Int) + head - tail) = ((head - tail : Nat) : Int) + cfg.cap := by omega
    rw [this, Int.add_emod_right, Int.emod_eq_of_lt (by omega) (by omega)]
    rfl
  · rw [Int.emod_eq_of_lt (by omega) (by omega)]
    omega

theorem availOf_lt {cfg : Config} {head tail : Nat} (hh : head < cfg.cap) (ht : tail < cfg.cap) :
    availOf cfg head tail < cfg.cap := by
  rw [availOf_eq hh ht]
  split_ifs <;> omega

/-- The index after the last is the first (R100). -/
theorem nextIdx_eq {cfg : Config} {i : Nat} (h : i < cfg.cap) :
    nextIdx cfg i = if i + 1 = cfg.cap then 0 else i + 1 := by
  unfold nextIdx
  split_ifs with h1
  · rw [h1, Nat.mod_self]
  · exact Nat.mod_eq_of_lt (by omega)

/-! ### Storage accesses -/

theorem memRead_of_lt {i : Nat} {s : State} (h : i < s.cfg.cap) (k : Byte → Result) :
    memRead i s k = k (s.storage.read i) := if_pos h

/-- A read that completes is of a slot that exists. -/
theorem memRead_eq_next {i : Nat} {s t : State} {k : Byte → Result} :
    memRead i s k = .next t ↔ i < s.cfg.cap ∧ k (s.storage.read i) = .next t := by
  unfold memRead
  split_ifs with h <;> simp [h]

theorem memWrite_of_lt {i : Nat} {s : State} (h : i < s.cfg.cap) (v : Byte) :
    memWrite i v s = .next (s.setStorage (s.storage.write i v)) := if_pos h

/-- A write that completes is of a slot that exists, and changes storage alone. -/
theorem memWrite_eq_next {i : Nat} {v : Byte} {s t : State} :
    memWrite i v s = .next t ↔ i < s.cfg.cap ∧ t = s.setStorage (s.storage.write i v) := by
  unfold memWrite
  split_ifs with h <;> simp [h, eq_comm]

/-- Counting a dropped byte changes the overflow counter alone, by at most one. -/
theorem countOverflow_eq (s : State) :
    s.countOverflow = s.setOvfCount
      (if s.cfg.hasOvfCounter && s.ovfCount != 0xFFFFFFFF#32 then s.ovfCount + 1#32
        else s.ovfCount) := by
  unfold State.countOverflow
  split_ifs <;> rfl

/-! ### The pin layer -/

theorem pinConfigOutput_of_lt {pin : PinId} {loc : PinLoc} {s : State}
    (h : loc.port.toNat < s.portDir.length) :
    pinConfigOutput pin loc s =
      .next ((s.setPortDir (s.portDir.modify loc.port.toNat (· ||| loc.mask))).logCall
        (.configOutput pin)) := if_pos h

theorem pinConfigOutput_eq_next {pin : PinId} {loc : PinLoc} {s t : State} :
    pinConfigOutput pin loc s = .next t ↔ loc.port.toNat < s.portDir.length ∧
      t = (s.setPortDir (s.portDir.modify loc.port.toNat (· ||| loc.mask))).logCall
        (.configOutput pin) := by
  unfold pinConfigOutput
  split_ifs with h <;> simp [h, eq_comm]

theorem pinWriteLow_of_lt {pin : PinId} {loc : PinLoc} {s : State}
    (h : loc.port.toNat < s.portOut.length) :
    pinWriteLow pin loc s =
      .next ((s.setPortOut (s.portOut.modify loc.port.toNat (· &&& ~~~loc.mask))).logCall
        (.writeLow pin)) := if_pos h

theorem pinWriteLow_eq_next {pin : PinId} {loc : PinLoc} {s t : State} :
    pinWriteLow pin loc s = .next t ↔ loc.port.toNat < s.portOut.length ∧
      t = (s.setPortOut (s.portOut.modify loc.port.toNat (· &&& ~~~loc.mask))).logCall
        (.writeLow pin) := by
  unfold pinWriteLow
  split_ifs with h <;> simp [h, eq_comm]

theorem pinToggle_of_lt {pt : PortId} {m : PortMask} {s : State}
    (h : pt.toNat < s.portOut.length) :
    pinToggle pt m s =
      .next ((s.setPortOut (s.portOut.modify pt.toNat (· ^^^ m))).logCall (.toggle pt m)) :=
  if_pos h

theorem pinToggle_eq_next {pt : PortId} {m : PortMask} {s t : State} :
    pinToggle pt m s = .next t ↔ pt.toNat < s.portOut.length ∧
      t = (s.setPortOut (s.portOut.modify pt.toNat (· ^^^ m))).logCall (.toggle pt m) := by
  unfold pinToggle
  split_ifs with h <;> simp [h, eq_comm]

/-! ### Claim and period -/

theorem claimAttempt_of_canClaim {pin : PinId} {s : State} (h : s.canClaim pin = true) :
    claimAttempt pin s = (true, s.setClaim true pin) := if_pos h

theorem claimAttempt_of_not {pin : PinId} {s : State} (h : s.canClaim pin = false) :
    claimAttempt pin s = (false, s) := by
  simp [claimAttempt, h]

/-- Setting the period changes the three period registers alone (R133). -/
theorem setPeriod_eq (p : Period) (s : State) :
    setPeriod p s = (s.setFullPeriod p).setChunk
      (if fitsCmp s.cfg p then p.toNat else s.cfg.cmpMax) (if fitsCmp s.cfg p then 0#32 else p) := by
  unfold setPeriod
  split_ifs <;> rfl

/-- The reload changes the compare register and the remainder alone (R164). -/
theorem reload_eq (s : State) :
    reload s = s.setChunk (if fitsCmp s.cfg s.fullPeriod then s.cmp else s.cfg.cmpMax)
      (if fitsCmp s.cfg s.fullPeriod then s.extRem else s.fullPeriod) := by
  unfold reload
  split_ifs <;> rfl

/-- The remainder after the first statement of R165. -/
def restOf (s : State) : Period :=
  if fitsCmp s.cfg s.fullPeriod then s.extRem else lessChunk s.cfg s.extRem

/-- A bookkeeping firing changes the compare register and the remainder alone (R165). -/
theorem bookkeepingFiring_eq (s : State) :
    bookkeepingFiring s = s.setChunk
      (if fitsCmp s.cfg (restOf s) then (restOf s).toNat else s.cmp)
      (if fitsCmp s.cfg (restOf s) then 0#32 else restOf s) := by
  unfold bookkeepingFiring loadFinalChunk consumeChunk restOf
  split_ifs <;> simp_all [State.setChunk, State.setExtRem]

theorem lessChunk_toNat {cfg : Config} {r : Period} (h : cfg.cmpMax ≤ r.toNat) :
    (lessChunk cfg r).toNat = r.toNat - cfg.cmpMax := by
  have hr := r.isLt
  have hm : (BitVec.ofNat 32 cfg.cmpMax).toNat = cfg.cmpMax :=
    Nat.mod_eq_of_lt (Nat.lt_of_le_of_lt h hr)
  rw [lessChunk, if_pos h, BitVec.toNat_sub_of_le (by rw [BitVec.le_def, hm]; exact h), hm]

/-! ### The end check and the handler -/

/-- The toggle of R166 on an existing port, with the decrement of a finite count. -/
theorem toggleAndCount_of_lt {s : State} (hp : s.outPort.toNat < s.portOut.length) :
    toggleAndCount s = .next
      { s with
        portOut := s.portOut.modify s.outPort.toNat (· ^^^ s.outMask)
        pinCalls := s.pinCalls ++ [.toggle s.outPort s.outMask]
        tc := if s.tcPositive then s.tc - 1#64 else s.tc } := by
  unfold toggleAndCount
  rw [pinToggle_of_lt hp, andThen_next]
  change Host.Outcome.next (if s.tcPositive then _ else _) = _
  split_ifs <;> rfl

/-- The end check on a running countdown with an existing port: one toggle, one decrement of a finite
count, and the interrupt off in the default reading when the count comes to 0 (R166). -/
theorem endCheck_of_ne {s : State} (h : s.tc ≠ 0#64) (hp : s.outPort.toNat < s.portOut.length) :
    endCheck s = .next
      { s with
        portOut := s.portOut.modify s.outPort.toNat (· ^^^ s.outMask)
        pinCalls := s.pinCalls ++ [.toggle s.outPort s.outMask]
        tc := if s.tcPositive then s.tc - 1#64 else s.tc
        cmpIE := s.cmpIE &&
          !(decide (s.cfg.endCheck = .afterDecrement) && decide (s.tc = 1#64)) } := by
  unfold endCheck
  rw [if_pos h, if_pos h, toggleAndCount_of_lt hp]
  cases hc : s.cfg.endCheck
  · have h0 : ((if s.tcPositive then s.tc - 1#64 else s.tc) = 0#64) ↔ s.tc = 1#64 := by
      constructor
      · split_ifs
        · intro h1; bv_omega
        · exact fun h1 => absurd h1 h
      · intro h1; simp [State.tcPositive, h1]
    simp only [andThen_next]
    generalize (if s.tcPositive then s.tc - 1#64 else s.tc) = n at h0 ⊢
    by_cases h1 : n = 0#64
    · simp [h1, h0.1 h1, State.setCmpIE]
    · simp [h1, mt h0.2 h1]
  · simp

/-- The end check on a countdown of 0, in either reading: the interrupt goes off, with no toggle. -/
theorem endCheck_of_zero {s : State} (h : s.tc = 0#64) :
    endCheck s = .next (s.setCmpIE false) := by
  unfold endCheck
  cases s.cfg.endCheck <;> simp [h]

/-- All an end check can change: the levels of the pin layer, its calls, the countdown and the
interrupt enable. -/
theorem endCheck_eq_next {s t : State} (h : endCheck s = .next t) :
    t = { s with portOut := t.portOut, pinCalls := t.pinCalls, tc := t.tc, cmpIE := t.cmpIE } := by
  by_cases h0 : s.tc = 0#64
  · rw [endCheck_of_zero h0] at h
    cases h
    rfl
  · by_cases hp : s.outPort.toNat < s.portOut.length
    · rw [endCheck_of_ne h0 hp] at h
      cases h
      rfl
    · exfalso
      unfold endCheck toggleAndCount pinToggle at h
      simp only [ne_eq, h0, not_false_eq_true, if_true, hp, if_false, andThen_fault] at h
      split at h <;> cases h

/-- What a handler that completes did: one of its two branches (R163). -/
theorem handler_eq_next {s t : State} (h : handler s = .next t) :
    (s.atThreshold = true ∧ endCheck (reload s) = .next t) ∨
      (s.atThreshold = false ∧ t = bookkeepingFiring s) := by
  unfold handler toggleFiring at h
  split_ifs at h with h1
  · exact .inl ⟨h1, h⟩
  · cases h
    exact .inr ⟨by simpa using h1, rfl⟩

/-- What a compare-match that completes did (R162). -/
theorem compareMatch_eq_next {s t : State} (h : compareMatch s = .next t) :
    (s.cmpIE = true ∧ handler (s.setTcnt 0) = .next t) ∨
      (s.cmpIE = false ∧ t = s.setTcnt 0) := by
  unfold compareMatch at h
  split_ifs at h with h1
  · exact .inl ⟨h1, h⟩
  · cases h
    exact .inr ⟨by simpa using h1, rfl⟩

/-- What a tick that completes did (R160). -/
theorem tick_eq_next {s t : State} (h : tick s = .next t) :
    (s.tcnt = s.cmp ∧ compareMatch s = .next t) ∨
      (s.tcnt ≠ s.cmp ∧ t = s.setTcnt ((s.tcnt + 1) % 2 ^ s.cfg.cmpWidth)) := by
  unfold tick at h
  split_ifs at h with h1
  · exact .inl ⟨h1, h⟩
  · cases h
    exact .inr ⟨h1, rfl⟩

end Sys2Proof.Machine
end

