-- ==== Sys2Proof/Laws/PerInstr.lean ====
section
/-! SUPPORT. Per-command families: what the encoding of each command holds in the fields that every
decoder reads first (R71, R74, R76). -/

namespace Sys2Proof.Laws.EncodedFields

/-- The encoded word has the command's opcode, and no must-be-zero bit of its format is set. -/
def Statement (i : Instr) : Prop :=
  fieldOp (encode i) = i.mnemonic.opcode ∧ reservedBitsZero (encode i) i.mnemonic.format = true

theorem rbStore (c : Byte) : Statement (.rbStore c) := ⟨formatD_op _ _, formatD_reserved _ _⟩

theorem rbAvailable : Statement .rbAvailable := ⟨formatN_op _, formatN_reserved _⟩

theorem rbPeek : Statement .rbPeek := ⟨formatN_op _, formatN_reserved _⟩

theorem rbRead : Statement .rbRead := ⟨formatN_op _, formatN_reserved _⟩

theorem rbFlush : Statement .rbFlush := ⟨formatN_op _, formatN_reserved _⟩

theorem rbOvfcount : Statement .rbOvfcount := ⟨formatN_op _, formatN_reserved _⟩

theorem toneClaim (pin : PinId) : Statement (.toneClaim pin) :=
  ⟨formatP_op _ _, formatP_reserved _ _⟩

theorem toneStart (pin : PinId) (frequency : Frequency) (durationMillis : Duration) :
    Statement (.toneStart pin frequency durationMillis) :=
  ⟨formatT_op _ _ _ _, formatT_reserved _ _ _ _⟩

theorem toneStop (pin : PinId) : Statement (.toneStop pin) := ⟨formatP_op _ _, formatP_reserved _ _⟩

theorem toneStatus : Statement .toneStatus := ⟨formatN_op _, formatN_reserved _⟩

theorem tmrTick : Statement .tmrTick := ⟨formatN_op _, formatN_reserved _⟩

theorem tmrMatch : Statement .tmrMatch := ⟨formatN_op _, formatN_reserved _⟩

end Sys2Proof.Laws.EncodedFields
end

