-- ==== Sys2Proof/Laws/Safety.lean ====
section
/-! SUPPORT. Consequences of the invariant in the words of 10_state.md R44. -/

namespace Sys2Proof.Machine

/-- R44 (h), where `UNBOUNDED` is the spec's -1. -/
theorem State.Inv.neg_one_le_tc {s : State} (h : s.Inv)
    (hu : s.cfg.unbounded = 0xFFFFFFFFFFFFFFFF#64) : -1 ≤ s.tc.toInt := by
  rcases h.tc_legal with h0 | h0
  · omega
  · rw [h0, hu]
    decide

end Sys2Proof.Machine
end

