-- ==== Sys2Proof/Tests/Slice0.lean ====
section
/-! SUPPORT. Tests: expected values are those of 30_encoding.md R74 and 95_test_vectors.md (named in
each comment), or worked out by hand from the rule named. After them, for every statement with
hypotheses, theorems that show states and operands meeting all of them together. -/

namespace Sys2Proof.Tests

open Sys2Proof Sys2Proof.Machine

/-! ### Helpers -/

/-- The state a meaning ends in. -/
def nextOf : Result → Option State
  | .next t => some t
  | .fault _ => none
  | .refused _ => none

/-- Something about the state after one command word on a port. -/
def afterWord {α : Type} (port : Port) (w : CommandWord) (s : State) (f : State → α) : Option α :=
  (nextOf (runCommand port w s)).map f

/-- The reason for which a word is refused right after reset, and the sticky mark. -/
def refusalOf (port : Port) (w : CommandWord) : Option (Option RefuseReason × Bool) :=
  afterWord port w State.reset fun t => (t.refusal, t.refused)

/-- The buffer of 95 section 2.1 with given indices. -/
def bufferAt (head tail : Nat) (m : Memory) : State :=
  { State.reset with head := head, tail := tail, storage := m }

/-- The pin layer's output levels with one byte at port 1. -/
def withPort1 (s : State) (b : Byte) : State := { s with portOut := [0, b, 0, 0] }

/-- RUN_FINITE(9) as `tone.start 9, 440, 1000` leaves it (95 TC3). -/
def runNine : State :=
  { State.reset with
    claimValid := true, claimedPin := 9, outPort := 1, outMask := 2, fullPeriod := 141, cmp := 141,
    tc := 880, cmpIE := true, portDir := [0, 2, 0, 0] }

/-- A running tone of the given compare value, remainder and countdown, with P = 600 (95 2.4). -/
def runSixHundred (c : Nat) (r : Period) (n : Countdown) : State :=
  { runNine with fullPeriod := 600, cmp := c, extRem := r, tc := n }

/-! ### WellFormed: each check refuses an ill-formed term -/

theorem test_wellFormed_refuses_absent_counter :
    Instr.wellFormed { Config.vectors with hasOvfCounter := false } .rbOvfcount = false := by decide

theorem test_inDomain_refuses_pin_32 :
    Instr.inDomain Config.vectors (.toneClaim 32) = false ∧
      Instr.inDomain Config.vectors (.toneStop 31) = true := by decide

theorem test_inDomain_refuses_frequency_0 :
    Instr.inDomain Config.vectors (.toneStart 9 0 5) = false ∧
      Instr.inDomain Config.vectors (.toneStart 9 1 5) = true := by decide

/-! ### Decoding: the words of R74's last column, and of 95 sections 2 and 3 -/

theorem test_decode_rbStore : decode true .rx 0x1000000000000041 = .ok (.rbStore 0x41) := by decide
theorem test_decode_rbAvailable : decode true .fg 0x2000000000000000 = .ok .rbAvailable := by decide
theorem test_decode_rbPeek : decode true .fg 0x3000000000000000 = .ok .rbPeek := by decide
theorem test_decode_rbRead : decode true .fg 0x4000000000000000 = .ok .rbRead := by decide
theorem test_decode_rbFlush : decode true .fg 0x5000000000000000 = .ok .rbFlush := by decide
theorem test_decode_rbOvfcount : decode true .fg 0x6000000000000000 = .ok .rbOvfcount := by decide
theorem test_decode_toneClaim : decode true .fg 0x7090000000000000 = .ok (.toneClaim 9) := by decide
theorem test_decode_toneStart :
    decode true .fg 0x809001B8000003E8 = .ok (.toneStart 9 440 1000) := by decide
theorem test_decode_toneStop : decode true .fg 0x9090000000000000 = .ok (.toneStop 9) := by decide
theorem test_decode_toneStatus : decode true .fg 0xA000000000000000 = .ok .toneStatus := by decide
theorem test_decode_tmrTick : decode true .tmr 0xB000000000000000 = .ok .tmrTick := by decide
theorem test_decode_tmrMatch : decode true .tmr 0xC000000000000000 = .ok .tmrMatch := by decide

/-- 95 TC4 and TC5, and all operand bits set (R72). -/
theorem test_decode_toneStart_fields :
    decode true .fg 0x80900005000000C8 = .ok (.toneStart 9 5 200) ∧
      decode true .fg 0x80900001000001F3 = .ok (.toneStart 9 1 499) ∧
      decode true .fg 0x8FF0FFFFFFFFFFFF = .ok (.toneStart 255 65535 0xFFFFFFFF) := by decide

/-- The host's reading of a row: the word of `rb.store 0x41` and of `tone.stop 9`. -/
theorem test_decodeTableWord :
    decodeTableWord 64 0x1000000000000041 = some (.rbStore 0x41) ∧
      decodeTableWord 64 0x9090000000000000 = some (.toneStop 9) ∧
      decodeTableWord 64 0xD000000000000000 = none := by decide

/-- R52: the least significant byte first. -/
theorem test_commandBytes :
    commandBytes 0x809001B8000003E8 = [0xE8, 0x03, 0x00, 0x00, 0xB8, 0x01, 0x90, 0x80] := by decide

/-- 95 TC7, letter for letter, with the digit separator of R8. -/
theorem test_assemble_separator :
    assemble "tone.start 9, 65535, 0xFFFF_FFFF" = some [.command .fg 0x8090FFFFFFFFFFFF] ∧
      assemble "tmr.ticks 0x_" = none := by decide

/-- R81, R82: two lines with a comment and blanks (95 L1.5, TC3). -/
theorem test_assemble :
    assemble "tone.claim 9 ; hold\ntone.start 9, 440,0x3E8" =
      some [.command .fg 0x7090000000000000, .command .fg 0x809001B8000003E8] := by decide

/-! ### Refusals (95 section 2.6: RF1 to RF12) -/

theorem test_refuse_reservedOpcode :
    refusalOf .fg 0x0000000000000000 = some (some .reservedOpcode, true) ∧
      refusalOf .fg 0xD000000000000000 = some (some .reservedOpcode, true) := by decide

theorem test_refuse_wrongPort :
    refusalOf .rx 0x2000000000000000 = some (some .wrongPort, true) ∧
      refusalOf .fg 0x1000000000000001 = some (some .wrongPort, true) ∧
      refusalOf .tmr 0x1000000000000041 = some (some .wrongPort, true) := by decide

theorem test_refuse_nonzeroReserved :
    refusalOf .fg 0x2000000000000001 = some (some .nonzeroReserved, true) ∧
      refusalOf .rx 0x1000000000000100 = some (some .nonzeroReserved, true) ∧
      refusalOf .tmr 0xB000000000000001 = some (some .nonzeroReserved, true) ∧
      refusalOf .fg 0x7090000000000001 = some (some .nonzeroReserved, true) ∧
      refusalOf .fg 0x809100000000000A = some (some .nonzeroReserved, true) := by decide

theorem test_refuse_pinOutOfRange :
    refusalOf .fg 0x7200000000000000 = some (some .pinOutOfRange, true) := by decide

theorem test_refuse_zeroFrequency :
    refusalOf .fg 0x809000000000000A = some (some .zeroFrequency, true) := by decide

/-! ### Ring buffer (95 section 2.1) -/

/-- RB1. -/
theorem test_rbStore_wraps :
    afterWord .rx 0x1000000000000041 (bufferAt 15 3 []) (fun t => (t.storage, t.head, t.avail)) =
      some ([(15, 0x41)], 0, 13) := by decide

/-- RB2. -/
theorem test_rbStore_full :
    afterWord .rx 0x1000000000000077 (bufferAt 2 3 [(5, 1)])
        (fun t => (t.storage, t.head, t.ovfCount)) = some ([(5, 1)], 2, 1) := by decide

/-- RB5. -/
theorem test_rbAvailable :
    afterWord .fg 0x2000000000000000 (bufferAt 2 14 []) (·.response) = some (some 4) := by decide

/-- RB7, and a byte that is there (L1.4). -/
theorem test_rbPeek :
    afterWord .fg 0x3000000000000000 (bufferAt 7 7 []) (·.response) = some (some 0xFFFFFFFF) ∧
      afterWord .fg 0x3000000000000000 (bufferAt 1 0 [(0, 0xFF)])
        (fun t => (t.response, t.tail)) = some (some 0xFF, 0) := by decide

/-- Another value of the parameter EMPTY (R7, 93 U10). -/
theorem test_rbPeek_empty_parameter :
    afterWord .fg 0x3000000000000000
        { State.reset with cfg := { Config.vectors with emptyResponse := 0x100 } } (·.response) =
      some (some 0x100) := by decide

/-- RB8. -/
theorem test_rbRead_wraps :
    afterWord .fg 0x4000000000000000 (bufferAt 0 15 [(15, 0x41)])
        (fun t => (t.response, t.tail, t.avail)) = some (some 0x41, 0, 0) := by decide

/-- RB7. -/
theorem test_rbRead_empty :
    afterWord .fg 0x4000000000000000 (bufferAt 7 7 []) (fun t => (t.response, t.tail)) =
      some (some 0xFFFFFFFF, 7) := by decide

/-- RB9. -/
theorem test_rbFlush :
    afterWord .fg 0x5000000000000000 (bufferAt 9 4 [(5, 1)])
        (fun t => (t.response, t.head, t.tail, t.storage)) = some (some 0, 9, 9, [(5, 1)]) := by
  decide

/-- RB12, and a counter that is there (R106). -/
theorem test_rbOvfcount :
    afterWord .fg 0x6000000000000000
        { State.reset with cfg := { Config.vectors with hasOvfCounter := false } }
        (fun t => (t.refusal, t.refused)) = some (some .reservedOpcode, true) ∧
      afterWord .fg 0x6000000000000000 { State.reset with ovfCount := 7 } (·.response) =
        some (some 7) := by decide

/-! ### Tone control (95 section 2.2) -/

/-- TC1. -/
theorem test_toneClaim_free :
    afterWord .fg 0x7090000000000000 State.reset
        (fun t => (t.response, t.claimValid, t.claimedPin)) = some (some 1, true, 9) := by decide

/-- TC2. -/
theorem test_toneClaim_held :
    afterWord .fg 0x70A0000000000000 { State.reset with claimValid := true, claimedPin := 9 }
        (fun t => (t.response, t.claimValid, t.claimedPin)) = some (some 0, true, 9) := by decide

/-- TC3: the whole state that the vector gives. -/
theorem test_toneStart :
    afterWord .fg 0x809001B8000003E8 State.reset (fun t => (t.response, t.quiet)) =
      some (some 0, runNine) := by decide

/-- TC10: an override of a longer tone. -/
theorem test_toneStart_overrides :
    afterWord .fg 0x809003E800000000 { runSixHundred 255 300 500 with tcnt := 7 }
        (fun t => (t.fullPeriod, t.cmp, t.extRem, t.tc, t.tcnt)) =
      some (61, 61, 0, 0xFFFFFFFFFFFFFFFF, 0) := by decide

/-- TC14. -/
theorem test_toneStop_releases :
    afterWord .fg 0x9090000000000000 (withPort1 runNine 0x03)
        (fun t => (t.cmpIE, t.claimValid, t.claimedPin, t.portOut, t.tc)) =
      some (false, false, 0, [0, 1, 0, 0], 880) := by decide

/-- TC15. -/
theorem test_toneStop_other_pin :
    afterWord .fg 0x90A0000000000000 (withPort1 runNine 0x06)
        (fun t => (t.cmpIE, t.claimedPin, t.portOut)) = some (true, 9, [0, 2, 0, 0]) := by decide

/-- TC17, TC18. -/
theorem test_toneStatus :
    afterWord .fg 0xA000000000000000 { runNine with tc := 0xFFFFFFFFFFFFFFFF } (·.response) =
        some (some 0x90B) ∧
      afterWord .fg 0xA000000000000000 { runNine with tc := 0, cmpIE := false } (·.response) =
        some (some 0x901) := by decide

/-! ### Timer (95 sections 2.3 and 2.4) -/

/-- TM1: a count, and a match discarded. -/
theorem test_tmrTick :
    afterWord .tmr 0xB000000000000000 { State.reset with cmp := 2, tcnt := 1 } (·.tcnt) = some 2 ∧
      afterWord .tmr 0xB000000000000000 { State.reset with cmp := 2, tcnt := 2 } (·.tcnt) =
        some 0 := by decide

/-- 2.4 with P = 600, row 3: the tick that ends the final chunk toggles and reloads. -/
theorem test_tmrTick_toggles :
    afterWord .tmr 0xB000000000000000 { runSixHundred 90 0 3 with tcnt := 90 }
        (fun t => (t.cmp, t.extRem, t.tc, t.tcnt, t.portOut)) =
      some (255, 600, 2, 0, [0, 2, 0, 0]) := by decide

/-- 2.4 with P = 600, rows 1 and 2: bookkeeping. -/
theorem test_tmrMatch_bookkeeping :
    afterWord .tmr 0xC000000000000000 (runSixHundred 255 600 3)
        (fun t => (t.cmp, t.extRem, t.tc, t.pinCalls)) = some (255, 345, 3, []) ∧
      afterWord .tmr 0xC000000000000000 (runSixHundred 255 345 3)
        (fun t => (t.cmp, t.extRem, t.tc, t.pinCalls)) = some (90, 0, 3, []) := by decide

/-- EC1 and EC2: the last toggle in both readings of the end check. -/
theorem test_tmrMatch_end :
    afterWord .tmr 0xC000000000000000 { runNine with tc := 1 }
        (fun t => (t.tc, t.cmpIE, t.pinCalls)) = some (0, false, [.toggle 1 2]) ∧
      afterWord .tmr 0xC000000000000000
        { runNine with tc := 1, cfg := { Config.vectors with endCheck := .elseBranch } }
        (fun t => (t.tc, t.cmpIE, t.pinCalls)) = some (0, true, [.toggle 1 2]) := by decide

/-! ### Steps -/

/-- A step right after reset runs the word that `withFetchWord` places. -/
theorem test_step_runs_word :
    ((nextOf (step (State.reset.withFetchWord 64 0x1000000000000041))).map fun t =>
      (t.storage, t.head, t.inbox)) = some ([(0, 0x41)], 1, []) := by decide

/-- R204: a block without pins. -/
theorem test_step_refuses_configuration :
    step { State.reset with cfg := { Config.vectors with pinMap := [] } } =
      .refused .configuration := by rfl

/-! ### Witnesses: concrete states that meet the hypotheses of the statements -/

/-- A board of four slots, three pins on two ports, and a few chosen periods. -/
def tiny : Config where
  cap := 4
  numPorts := 2
  pinMap := [⟨0, 1⟩, ⟨0, 2⟩, ⟨1, 8⟩]
  timerClkHz := 1000
  periodRows := [(1, 100), (2, 600), (3, 256), (4, 255), (5, 0)]

/-- After reset. -/
def idle : State := State.powerUp tiny [] [0, 0] [0, 0]

/-- Three bytes, as many as fit, wrapped around the end of storage. -/
def fullBuffer : State := { idle with storage := [(0, 3), (2, 1), (3, 2)], head := 1, tail := 2 }

/-- Pin 1 holds the claim, and no tone runs. -/
def heldOne : State := { idle with claimValid := true, claimedPin := 1 }

/-- `tone.start 2, 2, 1000` on the tiny board: P = 600, 4 toggles. -/
def running : State :=
  { fullBuffer with
    claimValid := true, claimedPin := 2, outPort := 1, outMask := 8, fullPeriod := 600, cmp := 255,
    extRem := 600, tc := 4, cmpIE := true, portDir := [0, 8] }

/-- The same tone at the end of its final chunk. -/
def atToggle : State := { running with cmp := 90, extRem := 0, tcnt := 90 }

/-- The same tone at the end of its first chunk. -/
def atBookkeeping : State := { running with tcnt := 255 }

theorem inv_idle : idle.Inv := by constructor <;> decide
theorem inv_fullBuffer : fullBuffer.Inv := by constructor <;> decide
theorem inv_heldOne : heldOne.Inv := by constructor <;> decide
theorem inv_running : running.Inv := by constructor <;> decide
theorem inv_atToggle : atToggle.Inv := by constructor <;> decide
theorem inv_atBookkeeping : atBookkeeping.Inv := by constructor <;> decide

theorem test_witness_DecodeEncodeRoundTrip :
    Instr.wellFormed tiny .rbOvfcount = true ∧
      Instr.wellFormed tiny (.toneStart 255 65535 0xFFFFFFFF) = true := by decide

theorem test_witness_DecodedWordIsEncoding :
    decode tiny.hasOvfCounter .tmr 0xC000000000000000 = .ok .tmrMatch := by decide

theorem test_witness_ReservedOpcodeRefused :
    decode false .rx 0x1000000000000041 ≠ .error .reservedOpcode := by decide

theorem test_witness_WrongPortRefused :
    mnemonicOf true (fieldOp 0x6000000000000000) = some .rbOvfcount ∧
      mnemonicOf false (fieldOp 0x1000000000000041) = some .rbStore := by decide

theorem test_witness_NonzeroReservedRefused :
    mnemonicOf true (fieldOp 0x8091000000000001) = some .toneStart ∧
      mustBeZero .t 48 ∧ mustBeZero .t 51 ∧ mustBeZero .p 0 ∧ mustBeZero .p 51 ∧
      mustBeZero .d 8 ∧ mustBeZero .d 59 ∧ mustBeZero .n 0 ∧ mustBeZero .n 59 := by
  refine ⟨by decide, ?_⟩
  simp only [mustBeZero]
  omega

theorem test_witness_AssemblerChecksOperands :
    assembleLine ⟨"tmr.ticks", [1]⟩ = some [.tmrTick] ∧ assembleLine ⟨"tmr.ticks", [0]⟩ = none := by
  decide

/-- The three outcomes a decoded command can have: a next state, a fault (in a state that no run
reaches), and a refusal. -/
theorem test_witness_StepRunsDecodedCommand :
    configOk tiny = true ∧ decode tiny.hasOvfCounter .fg (encode (.toneStop 2)) = .ok (.toneStop 2) ∧
      (exec (.toneStop 2) idle matches .next _) = true ∧
      (exec (.toneStop 2) { idle with portOut := [] } matches .fault _) = true ∧
      (exec (.toneStop 3) idle matches .refused (.command .pinOutOfRange)) = true := by decide

/-- Two causes apply and the lower code is reported; and a word to which none applies. -/
theorem test_witness_LowestCauseRefuses :
    (idle.causeApplies .fg 0x8091000000000001#64 .nonzeroReserved ∧
      idle.causeApplies .fg 0x8091000000000001#64 .zeroFrequency ∧
      ∀ r, idle.causeApplies .fg 0x8091000000000001#64 r → RefuseReason.nonzeroReserved.code ≤ r.code) ∧
    (idle.Inv ∧ ∀ r, ¬ idle.causeApplies .tmr 0xB000000000000000#64 r) := by
  have m1 : mnemonicOf true (fieldOp 0x8091000000000001#64) = some .toneStart := by decide
  have m2 : mnemonicOf true (fieldOp 0xB000000000000000#64) = some .tmrTick := by decide
  have h : idle.cfg.hasOvfCounter = true := rfl
  refine ⟨⟨?_, ?_, ?_⟩, inv_idle, ?_⟩
  · simp only [State.causeApplies, h, m1]; decide
  · simp only [State.causeApplies, h, m1]; decide
  · intro r; cases r <;> simp only [State.causeApplies, h, m1] <;> decide
  · intro r; cases r <;> simp only [State.causeApplies, h, m2] <;> decide

/-- Each value at which one parameter leaves its domain. -/
theorem test_witness_BadConfigurationRefused :
    ({ tiny with cap := 0 } : Config).cap < 1 ∧
      ({ tiny with reloadThreshold := 0 } : Config).reloadThreshold < 1 ∧
      ({ tiny with reloadThreshold := 257 } : Config).cmpMax + 1 <
        ({ tiny with reloadThreshold := 257 } : Config).reloadThreshold ∧
      ({ tiny with pinMap := [] } : Config).numPins < 1 ∧
      256 < ({ tiny with pinMap := List.replicate 257 ⟨0, 1⟩ } : Config).numPins ∧
      ({ tiny with numPorts := 0 } : Config).numPorts < 1 ∧
      256 < ({ tiny with numPorts := 257 } : Config).numPorts ∧
      pinLoc { tiny with numPorts := 1 } 2 = some ⟨1, 8⟩ ∧
      ¬ ∃ k, k < 8 ∧ ∀ j, j < 8 → ((3#8).getLsbD j = true ↔ j = k) := by
  refine ⟨by decide, by decide, by decide, by decide, ?_, by decide, by decide, by decide, by decide⟩
  rw [Config.numPins, List.length_replicate]
  decide

theorem test_witness_ResetInputLoadsResetValues :
    configOk running.cfg = true ∧
      (running.issueNext (.reset [9, 8, 7, 6])).inbox = .reset [9, 8, 7, 6] :: [] ∧
      running.inbox = [] := by decide

theorem test_witness_StateAfterReset :
    configOk tiny = true ∧ [1#8, 2#8].length = tiny.numPorts := by decide

theorem test_witness_OnlyResetClearsMarks :
    (∃ t, step { idle with inbox := [.command .tmr 0xB000000000000000] } = .next t) ∧
      (∃ t, exec .rbFlush fullBuffer = .next t) ∧
      (∃ t, step { running with inbox := [.reset []] } = .next t) :=
  ⟨⟨_, rfl⟩, ⟨_, rfl⟩, ⟨_, rfl⟩⟩

/-- A full buffer, at both ends of the counter, and one that is not full. -/
theorem test_witness_StoreWritesOrDrops :
    (fullBuffer.head < fullBuffer.cfg.cap ∧ Memory.wf 4 fullBuffer.storage = true ∧
      (fullBuffer.head + 1) % fullBuffer.cfg.cap = fullBuffer.tail) ∧
    (idle.head < idle.cfg.cap ∧ Memory.wf 4 idle.storage = true ∧
      (idle.head + 1) % idle.cfg.cap ≠ idle.tail) := by decide

theorem test_witness_AvailableResponds :
    fullBuffer.head < fullBuffer.cfg.cap ∧ fullBuffer.tail < fullBuffer.cfg.cap ∧
      (fullBuffer.cfg.cap + fullBuffer.head - fullBuffer.tail) % fullBuffer.cfg.cap < 2 ^ 32 := by
  decide

theorem test_witness_AvailableCountsUnread :
    fullBuffer.head < fullBuffer.cfg.cap ∧ fullBuffer.tail < fullBuffer.cfg.cap ∧
      1 ≤ fullBuffer.cfg.cap := by decide

theorem test_witness_PeekResponds : idle.tail < idle.cfg.cap ∧ fullBuffer.tail < fullBuffer.cfg.cap := by
  decide

theorem test_witness_ReadConsumes :
    ({ idle with head := 3, tail := 3 } : State).tail < idle.cfg.cap ∧
      ({ idle with head := 0, tail := 3 } : State).tail < idle.cfg.cap := by decide

theorem test_witness_EmptyIsNoByte :
    (∃ t, exec .rbPeek idle = .next t ∧ idle.head = idle.tail) ∧
      (∃ t, exec .rbRead fullBuffer = .next t ∧ fullBuffer.head ≠ fullBuffer.tail) ∧
      idle.cfg.emptyResponse = 0xFFFFFFFF ∧ fullBuffer.cfg.emptyResponse = 0xFFFFFFFF :=
  ⟨⟨_, rfl, rfl⟩, ⟨_, rfl, by decide⟩, rfl, rfl⟩

theorem test_witness_OverflowCountResponds :
    idle.cfg.hasOvfCounter = true ∧
      ({ idle with cfg := { tiny with hasOvfCounter := false } } : State).cfg.hasOvfCounter = false := by
  decide

/-- For (a) the longest list that fits, for (b) the shortest that does not, for (d) a byte. -/
theorem test_witness_BufferLaws :
    idle.Inv ∧ idle.avail = 0 ∧ [1#8, 2, 3].length ≤ idle.cfg.cap - 1 ∧
      idle.cfg.cap ≤ [1#8, 2, 3, 4].length ∧ idle.cfg.hasOvfCounter = true ∧
      idle.ovfCount.toNat + ([1#8, 2, 3, 4].length - (idle.cfg.cap - 1)) < 2 ^ 32 ∧
      fullBuffer.Inv ∧ fullBuffer.avail ≠ 0 :=
  ⟨inv_idle, by decide, by decide, by decide, by decide, by decide, inv_fullBuffer, by decide⟩

theorem test_witness_BufferRefinesQueue :
    fullBuffer.Inv ∧ (∃ t, exec (.rbStore 9) fullBuffer = .next t) ∧
      (∃ t, exec .rbRead fullBuffer = .next t) ∧ (∃ t, exec .rbPeek idle = .next t) ∧
      (∃ t, exec .tmrMatch fullBuffer = .next t) ∧ idle.Inv :=
  ⟨inv_fullBuffer, ⟨_, rfl⟩, ⟨_, rfl⟩, ⟨_, rfl⟩, ⟨_, rfl⟩, inv_idle⟩

theorem test_witness_NoLossWithinRoom :
    idle.Inv ∧ [1#8, 2, 3].length = idle.cfg.cap - 1 - idle.avail ∧
      fullBuffer.Inv ∧ ([] : List Byte).length = fullBuffer.cfg.cap - 1 - fullBuffer.avail :=
  ⟨inv_idle, by decide, inv_fullBuffer, by decide⟩

theorem test_witness_IndicesWrapInRange :
    3 < tiny.cap ∧ (∃ t, exec .rbRead fullBuffer = .next t) ∧
      fullBuffer.head < fullBuffer.cfg.cap ∧ fullBuffer.tail < fullBuffer.cfg.cap :=
  ⟨by decide, ⟨_, rfl⟩, by decide, by decide⟩

theorem test_witness_ResetStorageUnobservable :
    configOk tiny = true ∧ [0#8, 0#8].length = tiny.numPorts := by decide

theorem test_witness_ClaimResponds :
    ((2#8).toNat < idle.cfg.numPins ∧ (idle.claimValid = false ∨ idle.claimedPin = 2)) ∧
      ((1#8).toNat < heldOne.cfg.numPins ∧ (heldOne.claimValid = false ∨ heldOne.claimedPin = 1)) ∧
      ((2#8).toNat < heldOne.cfg.numPins ∧ heldOne.claimValid = true ∧ heldOne.claimedPin ≠ 2) ∧
      idle.cfg.numPins ≤ (3#8).toNat := by decide

theorem test_witness_ClaimLaws :
    (1#8).toNat < heldOne.cfg.numPins ∧ (2#8).toNat < heldOne.cfg.numPins ∧
      heldOne.claimValid = true ∧ heldOne.claimedPin = 1 ∧ 1#8 ≠ 2#8 := by decide

/-- A period that just fits and one that just does not, on a free claim and on the pin's own. -/
theorem test_witness_StartPrograms :
    (pinLoc idle.cfg 2 = some ⟨1, 8⟩ ∧ (idle.claimValid = false ∨ idle.claimedPin = 2) ∧
      4#16 ≠ 0#16 ∧ (1#8).toNat < idle.portDir.length ∧ 255#32 = periodOf idle.cfg 4) ∧
    (pinLoc heldOne.cfg 1 = some ⟨0, 2⟩ ∧ (heldOne.claimValid = false ∨ heldOne.claimedPin = 1) ∧
      3#16 ≠ 0#16 ∧ (0#8).toNat < heldOne.portDir.length ∧ 256#32 = periodOf heldOne.cfg 3) := by
  decide

theorem test_witness_StartLosesOrIsRefused :
    ((2#8).toNat < heldOne.cfg.numPins ∧ heldOne.claimValid = true ∧ heldOne.claimedPin ≠ 2) ∧
      idle.cfg.numPins ≤ (3#8).toNat ∧
      ((2#8).toNat < idle.cfg.numPins ∧ (idle.claimValid = false ∨ idle.claimedPin = 2)) := by decide

theorem test_witness_CountdownExact :
    tiny.unbounded = 0xFFFFFFFFFFFFFFFF ∧ tiny.msPerS = 1000 ∧ 499#32 ≠ 0#32 ∧
      2 * (1#16).toNat * (499#32).toNat < 1000 := by decide

theorem test_witness_StartOverridesOrLoses :
    running.claimValid = true ∧ (∃ t, exec (.toneStart 2 1 0) running = .next t) ∧
      running.claimedPin = 2 ∧ (∃ t, exec (.toneStart 0 1 0) running = .next t) ∧
      running.claimedPin ≠ 0 :=
  ⟨rfl, ⟨_, rfl⟩, rfl, ⟨_, rfl⟩, by decide⟩

theorem test_witness_StopReleasesAndDrivesLow :
    (pinLoc running.cfg 2 = some ⟨1, 8⟩ ∧ (1#8).toNat < running.portOut.length ∧
      running.claimValid = true ∧ running.claimedPin = 2) ∧
    (pinLoc running.cfg 0 = some ⟨0, 1⟩ ∧ (0#8).toNat < running.portOut.length ∧
      (running.claimValid = false ∨ running.claimedPin ≠ 0)) ∧
    running.cfg.numPins ≤ (3#8).toNat := by decide

theorem test_witness_StatusWordFields : idle.Inv ∧ idle.claimValid = false := ⟨inv_idle, rfl⟩

theorem test_witness_NoToggleAfterStop :
    (running.claimValid = true ∧ ∃ t, exec (.toneStop running.claimedPin) running = .next t) ∧
    (heldOne.cmpIE = false ∧ (∃ t, exec (.toneStart 1 1 1) heldOne = .next t ∧ t.cmpIE = true) ∧
      ∃ t, exec (.toneStop 2) heldOne = .next t) ∧
    (∀ port w i, .command port w ∈ heldOne.inbox → decode heldOne.cfg.hasOvfCounter port w = .ok i →
      (∀ pin f d, i ≠ .toneStart pin f d) ∧ ∀ pin, i ≠ .toneStop pin) ∧
    (∃ t, Host.Core.run Sys2Proof.core 2 heldOne = .next t) :=
  ⟨⟨rfl, ⟨_, rfl⟩⟩, ⟨rfl, ⟨_, rfl, rfl⟩, ⟨_, rfl⟩⟩, fun _ _ _ h => absurd h List.not_mem_nil,
    ⟨_, rfl⟩⟩

theorem test_witness_ToneFsmTransitions :
    idle.Inv ∧ idle.toneFsm = some .free ∧ heldOne.Inv ∧ heldOne.toneFsm = some (.held 1) ∧
      atToggle.Inv ∧ atToggle.toneFsm = some (.runFinite 2) ∧ atToggle.firesToggle .tick = true ∧
      (∃ t, exec .tmrTick atToggle = .next t) ∧ (∃ t, exec (.toneStart 1 1 0) heldOne = .next t) ∧
      (∃ t, exec (.toneStop 1) heldOne = .next t) ∧ (∃ t, exec (.toneClaim 2) heldOne = .next t) :=
  ⟨inv_idle, rfl, inv_heldOne, rfl, inv_atToggle, by decide, by decide, ⟨_, rfl⟩, ⟨_, rfl⟩,
    ⟨_, rfl⟩, ⟨_, rfl⟩⟩

theorem test_witness_CounterInterval :
    running.tcnt = 0 ∧ running.cmp ≤ running.cfg.cmpMax ∧ 255 ≤ running.cmp ∧ (∃ t, execTimes .tmrTick 1 idle = .next t) ∧
      idle.tcnt = 0 ∧ idle.cmp + 1 = 1 :=
  ⟨rfl, by decide, by decide, ⟨_, rfl⟩, rfl, rfl⟩

theorem test_witness_TickCountsOrMatches :
    running.tcnt ≠ running.cmp ∧ atToggle.tcnt = atToggle.cmp ∧ heldOne.cmpIE = false := by decide

theorem test_witness_ToggleFiringEffect :
    atToggle.cmpIE = true ∧ atToggle.extRem.toNat < atToggle.cfg.reloadThreshold ∧
      atToggle.outPort.toNat < atToggle.portOut.length := by decide

/-- An extended period at 256 and above, and (in a state that no run reaches) a short one. -/
theorem test_witness_BookkeepingFiringEffect :
    (running.cmpIE = true ∧ running.cfg.reloadThreshold ≤ running.extRem.toNat ∧
      running.cfg.cmpMax < running.fullPeriod.toNat ∧
      running.cfg.cmpMax ≤ running.extRem.toNat) ∧
    (({ running with fullPeriod := 255, extRem := 15 } : State).cfg.reloadThreshold ≤
      ({ running with fullPeriod := 255, extRem := 15 } : State).extRem.toNat ∧
      ({ running with fullPeriod := 255, extRem := 15 } : State).fullPeriod.toNat ≤ tiny.cmpMax) := by decide

/-- A chunk that leaves a remainder, and the one that leaves the final chunk. -/
theorem test_witness_RemainderNeverUnderflows :
    running.Inv ∧ running.firesBookkeeping .compare = true ∧
      (∃ t, exec .tmrMatch running = .next t ∧ t.extRem ≠ 0) ∧
      (∃ t, exec .tmrMatch { running with extRem := 345 } = .next t ∧ t.extRem = 0) ∧
      ({ running with extRem := 345 } : State).Inv :=
  ⟨inv_running, by decide, ⟨_, rfl, by decide⟩, ⟨_, rfl, by decide⟩, by constructor <;> decide⟩

theorem test_witness_ChunksSumToPeriod :
    running.Inv ∧ running.atHalfPeriodStart = true ∧ running.chunks = 2 ∧
      running.cfg.cmpMax < running.fullPeriod.toNat := ⟨inv_running, by decide, by decide, by decide⟩

theorem test_witness_HalfPeriodLength :
    running.Inv ∧ running.atHalfPeriodStart = true ∧
      601 + 1 < running.halfPeriod := ⟨inv_running, by decide, by decide⟩

/-- A finite count, a count of 0, an unbounded one, in both readings of the end check. -/
theorem test_witness_FiniteToneLength :
    running.Inv ∧ running.cmpIE = true ∧ running.tc.toInt = (4 : Nat) ∧
      running.cfg.endCheck = .afterDecrement ∧
      ({ running with tc := 0 } : State).Inv ∧ ({ running with tc := 0 } : State).tc.toInt = (0 : Nat) ∧
      ({ running with tc := 0xFFFFFFFFFFFFFFFF } : State).Inv ∧
      ({ running with tc := 0xFFFFFFFFFFFFFFFF } : State).tc.toInt < 0 ∧
      ({ running with cfg := { tiny with endCheck := .elseBranch } } : State).Inv :=
  ⟨inv_running, rfl, by decide, rfl, by constructor <;> decide, by decide, by constructor <;> decide,
    by decide, by constructor <;> decide⟩

theorem test_witness_HandlerWorkBounded :
    (∃ t, exec (TimerCommand.instr .tick) atToggle = .next t ∧ t.pinCalls = [.toggle 1 8]) ∧
      (∃ t, exec (TimerCommand.instr .compare) atBookkeeping = .next t ∧ t.pinCalls = []) :=
  ⟨⟨_, rfl, rfl⟩, ⟨_, rfl, rfl⟩⟩

/-- A command that changes each group of registers. -/
theorem test_witness_FieldOwnership :
    (∃ t, exec (.rbStore 9) idle = .next t ∧ t.head ≠ idle.head) ∧
      (∃ t, exec .rbFlush fullBuffer = .next t ∧ t.tail ≠ fullBuffer.tail) ∧
      (∃ t, exec (.toneStart 2 1 1) idle = .next t ∧ t.claimedPin ≠ idle.claimedPin ∧
        t.outPort ≠ idle.outPort ∧ t.cmp ≠ idle.cmp ∧ t.cmpIE ≠ idle.cmpIE) ∧
      (∃ t, exec .tmrTick atToggle = .next t ∧ t.portOut ≠ atToggle.portOut) :=
  ⟨⟨_, rfl, by decide⟩, ⟨_, rfl, by decide⟩,
    ⟨_, rfl, by decide, by decide, by decide, by decide⟩, ⟨_, rfl, by decide⟩⟩

theorem test_witness_Idempotency :
    (∃ t, exec .rbPeek fullBuffer = .next t) ∧ (∃ t, exec (.toneStop 2) running = .next t) ∧
      idle.canClaim 2 = true ∧ (∃ t, exec (.toneStart 2 1 1) idle = .next t) ∧
      fullBuffer.Inv ∧ fullBuffer.avail ≠ 0 :=
  ⟨⟨_, rfl⟩, ⟨_, rfl⟩, rfl, ⟨_, rfl⟩, inv_fullBuffer, by decide⟩

theorem test_witness_ReceiveAndTimerCommute : atToggle.Inv := inv_atToggle

theorem test_witness_StepKeepsInvariant :
    ({ atToggle with inbox := [.command .tmr 0xB000000000000000] } : State).Inv ∧
      ∃ t, step { atToggle with inbox := [.command .tmr 0xB000000000000000] } = .next t :=
  ⟨by constructor <;> decide, ⟨_, rfl⟩⟩

theorem test_witness_StepKeepsChunks :
    ({ running with inbox := [.command .tmr 0xC000000000000000] } : State).Inv ∧
      ({ running with inbox := [.command .tmr 0xC000000000000000] } : State).ChunkInv ∧
      ∃ t, step { running with inbox := [.command .tmr 0xC000000000000000] } = .next t :=
  ⟨by constructor <;> decide, by constructor <;> decide, ⟨_, rfl⟩⟩

theorem test_witness_EveryStepCompletes :
    ({ running with inbox := [.command .fg 0xD000000000000000] } : State).Inv := by
  constructor <;> decide

/-- A count of 999 / 1000 and the last toggle in the other reading. -/
theorem test_witness_ZeroCountCanRun :
    (idle.canClaim 2 = true ∧ 499#32 ≠ 0#32 ∧ 2 * (1#16).toNat * (499#32).toNat < idle.cfg.msPerS ∧
      ∃ t, exec (.toneStart 2 1 499) idle = .next t) ∧
    (∃ t, exec .tmrMatch
        { atToggle with tc := 1, cfg := { tiny with endCheck := .elseBranch } } = .next t) ∧
    ({ atToggle with tc := 1, cfg := { tiny with endCheck := .elseBranch } } : State).firesToggle
      .compare = true :=
  ⟨⟨rfl, by decide, by decide, ⟨_, rfl⟩⟩, ⟨_, rfl⟩, by decide⟩

theorem test_witness_SoftwareReadsLinearise :
    idle.Inv ∧ idle.head = idle.tail ∧ fullBuffer.Inv ∧ fullBuffer.head ≠ fullBuffer.tail :=
  ⟨inv_idle, rfl, inv_fullBuffer, by decide⟩

theorem test_witness_SoftwareFlushLinearises :
    idle.Inv ∧ idle.head = idle.tail ∧ fullBuffer.Inv ∧
      ([] : List Byte).length ≤ fullBuffer.cfg.cap - 1 - fullBuffer.avail :=
  ⟨inv_idle, rfl, inv_fullBuffer, by decide⟩

end Sys2Proof.Tests
end

/-! PROOFS. `PERIOD_FN` (00_scope.md R7): what the rows of a configuration make of it. -/

namespace Sys2Proof.Machine

/-- All operands of `PERIOD_FN`: the 16-bit frequencies (R7). -/
def allFrequencies : List Frequency := (List.finRange (2 ^ 16)).map BitVec.ofFin

theorem mem_allFrequencies (f : Frequency) : f ∈ allFrequencies :=
  List.mem_map.mpr ⟨f.toFin, List.mem_finRange _, rfl⟩

/-- A listed row decides `PERIOD_FN` at its frequency; the default formula has no part in it. -/
theorem periodOf_of_lookup {cfg : Config} {f : Frequency} {p : Period}
    (h : cfg.periodRows.lookup f = some p) : periodOf cfg f = p := by
  simp [periodOf, h]

/-- The rows that tabulate `g` on the frequencies `fs` make `PERIOD_FN` equal to `g` there. -/
theorem periodOf_tabulated (cfg : Config) (g : Frequency → Period) {f : Frequency}
    {fs : List Frequency} (hf : f ∈ fs) :
    periodOf { cfg with periodRows := fs.map fun f => (f, g f) } f = g f :=
  periodOf_of_lookup (List.lookup_graph g hf)

/-- Settles O9: the table of `g` over all frequencies is a list of rows for it. -/
theorem everyPeriodFunctionIsConfigurable : Obligations.EveryPeriodFunctionIsConfigurable :=
  fun cfg g => ⟨allFrequencies.map fun f => (f, g f),
    fun f => periodOf_tabulated cfg g (mem_allFrequencies f)⟩

end Sys2Proof.Machine

/-! PROOFS. What the commands and a step can do, said once: an equation for each case of a command rule,
and for each command the registers that it owns (10_state.md R42, R43). -/

namespace Sys2Proof.Machine

section
variable {s t : State}

/-! ### The ring buffer -/

theorem execRbStore_of_full (c : Byte) (h : nextIdx s.cfg s.head = s.tail) :
    execRbStore c s = .next s.beginCommand.countOverflow := if_pos h

theorem execRbStore_of_room (c : Byte) (h : nextIdx s.cfg s.head ≠ s.tail)
    (hh : s.head < s.cfg.cap) :
    execRbStore c s = .next
      ((s.beginCommand.setStorage (s.storage.write s.head c)).setHead (nextIdx s.cfg s.head)) := by
  have hw := memWrite_of_lt (s := s.beginCommand) hh c
  exact (if_neg h).trans (by rw [State.beginCommand_head, hw]; rfl)

theorem execRbPeek_of_empty (h : s.head = s.tail) :
    execRbPeek s = .next (s.beginCommand.respond s.cfg.emptyResponse) :=
  if_pos (beq_iff_eq.mpr h)

theorem execRbPeek_of_ne (h : s.head ≠ s.tail) (ht : s.tail < s.cfg.cap) :
    execRbPeek s = .next (s.beginCommand.respond ((s.storage.read s.tail).setWidth 32)) :=
  (if_neg (mt beq_iff_eq.mp h)).trans (memRead_of_lt (s := s.beginCommand) ht _)

theorem execRbRead_of_empty (h : s.head = s.tail) :
    execRbRead s = .next (s.beginCommand.respond s.cfg.emptyResponse) :=
  if_pos (beq_iff_eq.mpr h)

theorem execRbRead_of_ne (h : s.head ≠ s.tail) (ht : s.tail < s.cfg.cap) :
    execRbRead s = .next ((s.beginCommand.setTail (nextIdx s.cfg s.tail)).respond
      ((s.storage.read s.tail).setWidth 32)) :=
  (if_neg (mt beq_iff_eq.mp h)).trans (memRead_of_lt (s := s.beginCommand) ht _)

/-! ### Tone control -/

theorem execToneClaim_of_noPin {pin : PinId} (hl : pinLoc s.cfg pin = none) :
    execToneClaim pin s = refuse .pinOutOfRange := by
  simp [execToneClaim, hl]

/-- TONE_CLAIM on a pin of the board makes one claim attempt and answers its success (R131). -/
theorem execToneClaim_of_pin {pin : PinId} {loc : PinLoc} (hl : pinLoc s.cfg pin = some loc) :
    execToneClaim pin s = .next ((claimAttempt pin s.beginCommand).2.respond
      (if (claimAttempt pin s.beginCommand).1 then 1#32 else 0#32)) := by
  simp [execToneClaim, hl]

theorem execToneStop_of_noPin {pin : PinId} (hl : pinLoc s.cfg pin = none) :
    execToneStop pin s = refuse .pinOutOfRange := by
  simp [execToneStop, hl]

theorem execToneStop_of_pin {pin : PinId} {loc : PinLoc} (hl : pinLoc s.cfg pin = some loc) :
    execToneStop pin s = andThen (pinWriteLow pin loc (releaseClaim pin s.beginCommand)) fun s =>
      .next (s.respond 0#32) := by
  simp [execToneStop, hl]

/-- The release changes the claim and the interrupt enable alone (R135). -/
theorem releaseClaim_eq (pin : PinId) (s : State) :
    releaseClaim pin s = { s with
      claimValid := (releaseClaim pin s).claimValid
      claimedPin := (releaseClaim pin s).claimedPin
      cmpIE := (releaseClaim pin s).cmpIE } := by
  unfold releaseClaim
  split_ifs <;> rfl

@[simp] theorem releaseClaim_cfg (pin : PinId) : (releaseClaim pin s).cfg = s.cfg := by
  rw [releaseClaim_eq]

/-- Steps 3 to 5 of TONE_START (R132): the period and the countdown are programmed, the counter
restarts, and the interrupt is enabled. -/
def programTone (f : Frequency) (d : Duration) (s : State) : State :=
  (((setPeriod (periodOf s.cfg f) s).setTc (countdown s.cfg f d)).setTcnt 0).setCmpIE true

/-- Setting a period writes the period and some chunk and remainder of it, and nothing else (R133). -/
theorem setPeriod_writes (p : Period) (s : State) :
    ∃ c r, setPeriod p s = (s.setFullPeriod p).setChunk c r := ⟨_, _, setPeriod_eq p s⟩

/-- Programming a tone writes the timer's registers and nothing else. -/
theorem programTone_writes (f : Frequency) (d : Duration) (s : State) :
    ∃ c r, programTone f d s = { s with
      cmp := c, extRem := r, fullPeriod := periodOf s.cfg f, tc := countdown s.cfg f d
      tcnt := 0, cmpIE := true } := by
  obtain ⟨c, r, hp⟩ := setPeriod_writes (periodOf s.cfg f) s
  refine ⟨c, r, ?_⟩
  rw [programTone, hp]
  simp only [State.setFullPeriod, State.setChunk, State.setTc, State.setTcnt, State.setCmpIE]

/-- The counter's restart does not depend on what the start programs before it. -/
theorem setPeriod_setTcnt (p : Period) (n : Nat) :
    (setPeriod p s).setTcnt n = setPeriod p (s.setTcnt n) := by
  rw [setPeriod_eq, setPeriod_eq]
  rfl

theorem setTc_setTcnt (n : Countdown) (k : Nat) :
    (s.setTc n).setTcnt k = (s.setTcnt k).setTc n := rfl

/-- A pin becomes the output (R132 step 2): it is resolved and its direction bit is set. -/
def makeOutput (pin : PinId) (loc : PinLoc) (s : State) : State :=
  ((s.setOut loc).setPortDir (s.portDir.modify loc.port.toNat (· ||| loc.mask))).logCall
    (.configOutput pin)

theorem startTone_of_lt {pin : PinId} {loc : PinLoc} (f : Frequency) (d : Duration)
    (h : loc.port.toNat < s.portDir.length) :
    startTone pin loc f d s = .next (programTone f d (makeOutput pin loc s)) := by
  have hout : loc.port.toNat < (s.setOut loc).portDir.length := h
  rw [startTone, pinConfigOutput_of_lt hout, andThen_next]
  rfl

/-- A start that completes found its port in the pin layer. -/
theorem startTone_eq_next {pin : PinId} {loc : PinLoc} {f : Frequency} {d : Duration}
    (h : startTone pin loc f d s = .next t) : t = programTone f d (makeOutput pin loc s) := by
  obtain ⟨u, hu, -⟩ := andThen_eq_next.mp h
  obtain ⟨hport, -⟩ := pinConfigOutput_eq_next.mp hu
  rw [State.setOut_portDir] at hport
  rw [startTone_of_lt f d hport] at h
  exact (Host.Outcome.next.inj h).symm

theorem execToneStart_of_noPin {pin : PinId} (f : Frequency) (d : Duration)
    (hl : pinLoc s.cfg pin = none) : execToneStart pin f d s = refuse .pinOutOfRange := by
  simp [execToneStart, hl]

/-- Frequency 0 is refused where the claim would succeed (R132). -/
theorem execToneStart_zeroFrequency {pin : PinId} {loc : PinLoc} (d : Duration)
    (hl : pinLoc s.cfg pin = some loc) (hc : s.canClaim pin = true) :
    execToneStart pin 0#16 d s = refuse .zeroFrequency := by
  simp [execToneStart, hl, hc]

/-- TONE_START on a pin of the board whose claim succeeds, at a frequency in its domain (R132). -/
theorem execToneStart_of_canClaim {pin : PinId} {loc : PinLoc} {f : Frequency} (d : Duration)
    (hl : pinLoc s.cfg pin = some loc) (hc : s.canClaim pin = true) (hf : f ≠ 0#16) :
    execToneStart pin f d s =
      andThen (startTone pin loc f d (s.beginCommand.setClaim true pin)) fun s =>
        .next (s.respond 0#32) := by
  have hb : s.beginCommand.canClaim pin = true := hc
  simp [execToneStart, hl, hf, claimAttempt_of_canClaim hb]

/-- TONE_START on a pin of the board whose claim fails writes nothing, at any frequency (R132). -/
theorem execToneStart_of_not_canClaim {pin : PinId} {loc : PinLoc} (f : Frequency) (d : Duration)
    (hl : pinLoc s.cfg pin = some loc) (hc : s.canClaim pin = false) :
    execToneStart pin f d s = .next (s.beginCommand.respond 0#32) := by
  have hb : s.beginCommand.canClaim pin = false := hc
  simp [execToneStart, hl, hc, claimAttempt_of_not hb]

/-- What a TONE_START that completes did: it programmed the tone, or lost the claim (R132). -/
theorem execToneStart_eq_next {pin : PinId} {f : Frequency} {d : Duration}
    (h : execToneStart pin f d s = .next t) :
    (s.canClaim pin = true ∧ ∃ loc, pinLoc s.cfg pin = some loc ∧ f ≠ 0#16 ∧
      t = (programTone f d (makeOutput pin loc (s.beginCommand.setClaim true pin))).respond 0#32) ∨
    (s.canClaim pin = false ∧ t = s.beginCommand.respond 0#32) := by
  cases hl : pinLoc s.cfg pin with
  | none => rw [execToneStart_of_noPin f d hl] at h; cases h
  | some loc =>
    cases hc : s.canClaim pin with
    | false =>
      rw [execToneStart_of_not_canClaim f d hl hc] at h
      cases h
      exact .inr ⟨rfl, rfl⟩
    | true =>
      by_cases hf : f = 0#16
      · rw [hf, execToneStart_zeroFrequency d hl hc] at h
        cases h
      · rw [execToneStart_of_canClaim d hl hc hf] at h
        obtain ⟨u, hu, hk⟩ := andThen_eq_next.mp h
        cases hk
        exact .inl ⟨rfl, loc, rfl, hf, by rw [startTone_eq_next hu]⟩

/-! ### The handler -/

/-- An end check on a running countdown that completes found its port in the pin layer. -/
theorem endCheck_port_lt (h : endCheck s = .next t) (h0 : s.tc ≠ 0#64) :
    s.outPort.toNat < s.portOut.length := by
  have toggled : ∃ u, toggleAndCount s = .next u := by
    unfold endCheck at h
    rw [if_pos h0, if_pos h0] at h
    cases hc : s.cfg.endCheck with
    | afterDecrement =>
      rw [hc] at h
      obtain ⟨u, hu, -⟩ := andThen_eq_next.mp h
      exact ⟨u, hu⟩
    | elseBranch =>
      rw [hc] at h
      exact ⟨t, h⟩
  obtain ⟨u, hu⟩ := toggled
  obtain ⟨v, hv, -⟩ := andThen_eq_next.mp hu
  exact (pinToggle_eq_next.mp hv).1

/-- A compare-match at the threshold is a toggle firing (R162, R163). -/
theorem compareMatch_of_threshold (hie : s.cmpIE = true) (ht : s.atThreshold = true) :
    compareMatch s = endCheck (reload (s.setTcnt 0)) := by
  have ht0 : (s.setTcnt 0).atThreshold = true := ht
  rw [compareMatch, if_pos hie, handler, if_pos ht0, toggleFiring]

/-! ### The step -/

theorem step_idle (hc : configOk s.cfg = true) (hi : s.inbox = []) : step s = .next s := by
  simp [step, hc, hi]

theorem step_event {e : Event} {rest : List Event} (hc : configOk s.cfg = true)
    (hi : s.inbox = e :: rest) : step s = runEvent e (s.setInbox rest) := by
  simp [step, hc, hi]

theorem run_succ (n : Nat) (h : step s = .next t) :
    Host.Core.run core (n + 1) s = Host.Core.run core n t := by
  have hs : core.step s = .next t := h
  simp only [Host.Core.run, hs]

/-! ### The registers that a command owns (R42, R43) -/

/-- `s` with the outputs of the last command taken from `t`. -/
def State.withOutputs (s t : State) : State :=
  { s with response := t.response, pinCalls := t.pinCalls, refusal := t.refusal }

/-- `s` with the outputs and all that a compare-match can write taken from `t`. -/
def State.withTimer (s t : State) : State :=
  { s.withOutputs t with
    cmp := t.cmp, extRem := t.extRem, tc := t.tc, tcnt := t.tcnt, cmpIE := t.cmpIE
    portOut := t.portOut }

/-- `s` with the outputs and the registers that the command owns taken from `t`. -/
def withOwned (i : Instr) (s t : State) : State :=
  match i with
  | .rbStore _ =>
    { s.withOutputs t with head := t.head, storage := t.storage, ovfCount := t.ovfCount }
  | .rbRead | .rbFlush => { s.withOutputs t with tail := t.tail }
  | .rbAvailable | .rbPeek | .rbOvfcount | .toneStatus => s.withOutputs t
  | .toneClaim _ => { s.withOutputs t with claimValid := t.claimValid, claimedPin := t.claimedPin }
  | .toneStart _ _ _ =>
    { s.withOutputs t with
      claimValid := t.claimValid, claimedPin := t.claimedPin
      outPort := t.outPort, outMask := t.outMask, fullPeriod := t.fullPeriod, portDir := t.portDir
      cmp := t.cmp, extRem := t.extRem, tc := t.tc, tcnt := t.tcnt, cmpIE := t.cmpIE }
  | .toneStop _ =>
    { s.withOutputs t with
      claimValid := t.claimValid, claimedPin := t.claimedPin
      cmpIE := t.cmpIE, portOut := t.portOut }
  | .tmrTick | .tmrMatch => s.withTimer t

theorem execRbStore_frame {c : Byte} (h : execRbStore c s = .next t) :
    t = withOwned (.rbStore c) s t := by
  unfold execRbStore at h
  dsimp only at h
  split_ifs at h
  · rw [← Host.Outcome.next.inj h, countOverflow_eq]
    rfl
  · obtain ⟨u, hu, hk⟩ := andThen_eq_next.mp h
    obtain ⟨-, rfl⟩ := memWrite_eq_next.mp hu
    cases hk
    rfl

theorem execRbPeek_frame (h : execRbPeek s = .next t) : t = withOwned .rbPeek s t := by
  unfold execRbPeek at h
  dsimp only at h
  split_ifs at h
  · cases h; rfl
  · obtain ⟨-, hk⟩ := memRead_eq_next.mp h
    cases hk; rfl

theorem execRbRead_frame (h : execRbRead s = .next t) : t = withOwned .rbRead s t := by
  unfold execRbRead at h
  dsimp only at h
  split_ifs at h
  · cases h; rfl
  · obtain ⟨-, hk⟩ := memRead_eq_next.mp h
    cases hk; rfl

theorem execRbOvfcount_frame (h : execRbOvfcount s = .next t) :
    t = withOwned .rbOvfcount s t := by
  unfold execRbOvfcount at h
  split_ifs at h
  · cases h; rfl
  · cases h

theorem execToneClaim_frame {pin : PinId} (h : execToneClaim pin s = .next t) :
    t = withOwned (.toneClaim pin) s t := by
  cases hl : pinLoc s.cfg pin with
  | none => rw [execToneClaim_of_noPin hl] at h; cases h
  | some loc =>
    rw [execToneClaim_of_pin hl] at h
    unfold claimAttempt at h
    split_ifs at h <;> cases h <;> rfl

theorem execToneStart_frame {pin : PinId} {f : Frequency} {d : Duration}
    (h : execToneStart pin f d s = .next t) : t = withOwned (.toneStart pin f d) s t := by
  obtain ⟨-, loc, -, -, rfl⟩ | ⟨-, rfl⟩ := execToneStart_eq_next h
  · obtain ⟨c, r, hp⟩ := programTone_writes f d
      (makeOutput pin loc (s.beginCommand.setClaim true pin))
    rw [hp]
    rfl
  · rfl

theorem execToneStop_frame {pin : PinId} (h : execToneStop pin s = .next t) :
    t = withOwned (.toneStop pin) s t := by
  cases hl : pinLoc s.cfg pin with
  | none => rw [execToneStop_of_noPin hl] at h; cases h
  | some loc =>
    rw [execToneStop_of_pin hl, releaseClaim_eq] at h
    obtain ⟨u, hu, hk⟩ := andThen_eq_next.mp h
    obtain ⟨-, rfl⟩ := pinWriteLow_eq_next.mp hu
    cases hk
    rfl

theorem handler_frame (h : handler s = .next t) : t = s.withTimer t := by
  obtain ⟨-, hend⟩ | ⟨-, rfl⟩ := handler_eq_next h
  · rw [reload_eq] at hend
    rw [endCheck_eq_next hend]
    rfl
  · rw [bookkeepingFiring_eq]
    rfl

theorem compareMatch_frame (h : compareMatch s = .next t) : t = s.withTimer t := by
  obtain ⟨-, hh⟩ | ⟨-, rfl⟩ := compareMatch_eq_next h
  · rw [handler_frame hh]
    rfl
  · rfl

theorem tick_frame (h : tick s = .next t) : t = s.withTimer t := by
  obtain ⟨-, hm⟩ | ⟨-, rfl⟩ := tick_eq_next h
  · exact compareMatch_frame hm
  · rfl

/-- A command that completes changes its outputs and the registers it owns, and nothing else. -/
theorem exec_frame {i : Instr} (h : exec i s = .next t) : t = withOwned i s t := by
  cases i with
  | rbStore c => exact execRbStore_frame h
  | rbAvailable => cases h; rfl
  | rbPeek => exact execRbPeek_frame h
  | rbRead => exact execRbRead_frame h
  | rbFlush => cases h; rfl
  | rbOvfcount => exact execRbOvfcount_frame h
  | toneClaim pin => exact execToneClaim_frame h
  | toneStart pin f d => exact execToneStart_frame h
  | toneStop pin => exact execToneStop_frame h
  | toneStatus => cases h; rfl
  | tmrTick => exact tick_frame (s := s.beginCommand) h
  | tmrMatch => exact compareMatch_frame (s := s.beginCommand) h

end

/-- Settles O49: the frame of the command, read off register by register. -/
theorem fieldOwnership : Obligations.FieldOwnership := by
  intro i s t h
  have hframe := exec_frame h
  rw [hframe]
  cases i <;> simp [withOwned, State.withOutputs, State.withTimer]

end Sys2Proof.Machine

/-! PROOFS. The invariant of 10_state.md R42 and R44: it holds at power-up, and from a state that meets
it every event completes (R200) in a state that meets it. -/

namespace Sys2Proof.Machine

/-! ### The domain of a configuration (R204) -/

theorem configOk_bounds {cfg : Config} (h : configOk cfg = true) :
    1 ≤ cfg.cap ∧ 1 ≤ cfg.reloadThreshold ∧ 1 ≤ cfg.numPins ∧ 1 ≤ cfg.numPorts := by
  simp only [configOk, Bool.and_eq_true, decide_eq_true_eq] at h
  omega

/-- A pin that `PIN_MAP` places is a pin of the board (R7). -/
theorem pinLoc_lt {cfg : Config} {pin : PinId} {loc : PinLoc} (h : pinLoc cfg pin = some loc) :
    pin.toNat < cfg.numPins :=
  (List.getElem?_eq_some_iff.mp h).1

/-- `PIN_MAP` names existing ports and single bits of them (R7, R204). -/
theorem pinLoc_ok {cfg : Config} {pin : PinId} {loc : PinLoc} (hc : configOk cfg = true)
    (h : pinLoc cfg pin = some loc) : loc.port.toNat < cfg.numPorts ∧ oneHot loc.mask = true := by
  simp only [configOk, Bool.and_eq_true] at hc
  obtain ⟨⟨-, hall⟩, -⟩ := hc
  simpa [PinLoc.ok] using List.all_eq_true.mp hall loc (List.mem_of_getElem? h)

/-! ### The state after power-up (R230) -/

theorem powerUp_inv {cfg : Config} {m : Memory} {portOut portDir : List Byte}
    (hc : configOk cfg = true) (hm : Memory.wf cfg.cap m = true)
    (ho : portOut.length = cfg.numPorts) (hd : portDir.length = cfg.numPorts) :
    (State.powerUp cfg m portOut portDir).Inv := by
  obtain ⟨hcap, -, hpins, hports⟩ := configOk_bounds hc
  exact
    { config_ok := hc
      storage_wf := hm
      head_lt := hcap
      tail_lt := hcap
      ovfCount_absent := fun _ => rfl
      portOut_length := ho
      portDir_length := hd
      claimedPin_lt := hpins
      claimedPin_free := fun _ => rfl
      outPort_lt := hports
      outMask_legal := .inl rfl
      running_claimed := nofun
      running_resolved := nofun
      cmp_le := Nat.zero_le _
      tcnt_le := le_rfl
      extRem_legal := .inl rfl
      tc_legal := .inl (show 0 ≤ (0#64).toInt by decide) }

theorem powerUp_chunkInv (cfg : Config) (m : Memory) (portOut portDir : List Byte) :
    (State.powerUp cfg m portOut portDir).ChunkInv where
  cmp_fits _ := rfl
  cmp_chunk h := absurd rfl h
  extRem_multiple h := absurd rfl h
  final_positive h := absurd ((fitsCmp_eq_false_iff _ _).mp h) (Nat.not_lt_zero _)
  final_multiple _ := ⟨le_rfl, dvd_zero _⟩

/-- Settles O15: the reset state is a power-up under a configuration in its domain. -/
theorem resetMeetsInvariant : Obligations.ResetMeetsInvariant :=
  ⟨powerUp_inv (by decide) rfl rfl rfl, powerUp_chunkInv _ _ _ _⟩

/-! ### The updates that keep the invariant -/

section
variable {s : State}

theorem State.Inv.beginCommand (h : s.Inv) : s.beginCommand.Inv := { h with }

theorem State.Inv.respond (h : s.Inv) (v : Response) : (s.respond v).Inv := { h with }

theorem State.Inv.setInbox (h : s.Inv) (l : List Event) : (s.setInbox l).Inv := { h with }

theorem State.Inv.markRefused (h : s.Inv) (r : RefuseReason) : (s.markRefused r).Inv := { h with }

theorem State.Inv.setHead (h : s.Inv) {i : Nat} (hi : i < s.cfg.cap) : (s.setHead i).Inv :=
  { h with head_lt := hi }

theorem State.Inv.setTail (h : s.Inv) {i : Nat} (hi : i < s.cfg.cap) : (s.setTail i).Inv :=
  { h with tail_lt := hi }

theorem State.Inv.writeSlot (h : s.Inv) {i : Nat} (hi : i < s.cfg.cap) (v : Byte) :
    (s.setStorage (s.storage.write i v)).Inv :=
  { h with storage_wf := Memory.wf_write v h.storage_wf hi }

theorem State.Inv.cap_pos (h : s.Inv) : 0 < s.cfg.cap := (configOk_bounds h.config_ok).1

/-- The counter stays 0 when the configuration has none (R27). -/
theorem State.Inv.countOverflow (h : s.Inv) : s.countOverflow.Inv := by
  rw [countOverflow_eq]
  refine { h with ovfCount_absent := fun ha => ?_ }
  have hno : s.cfg.hasOvfCounter = false := ha
  simp [hno, h.ovfCount_absent hno]

/-- A claim that may be made leaves a running tone on the pin it runs on. -/
theorem State.Inv.claim (h : s.Inv) {pin : PinId} (hp : pin.toNat < s.cfg.numPins)
    (hc : s.canClaim pin = true) : (s.setClaim true pin).Inv := by
  have same : s.cmpIE = true → s.claimedPin = pin := fun hr => by
    simpa [State.canClaim, h.running_claimed hr] using hc
  exact
    { h with
      claimedPin_lt := hp
      claimedPin_free := nofun
      running_claimed := fun _ => rfl
      running_resolved := fun hr => same hr ▸ h.running_resolved hr }

theorem State.Inv.releaseClaim (h : s.Inv) (pin : PinId) : (releaseClaim pin s).Inv := by
  unfold Machine.releaseClaim
  obtain ⟨-, -, hpins, -⟩ := configOk_bounds h.config_ok
  split_ifs
  · exact
      { h with
        claimedPin_lt := hpins
        claimedPin_free := fun _ => rfl
        running_claimed := nofun
        running_resolved := nofun }
  · exact h

/-- The place that `PIN_MAP` gives the claimed pin is a legal output. -/
theorem State.Inv.setOut (h : s.Inv) {loc : PinLoc} (hl : pinLoc s.cfg s.claimedPin = some loc) :
    (s.setOut loc).Inv := by
  obtain ⟨hport, hmask⟩ := pinLoc_ok h.config_ok hl
  exact { h with outPort_lt := hport, outMask_legal := .inr hmask, running_resolved := fun _ => hl }

theorem State.Inv.writePortOut (h : s.Inv) (k : Nat) (f : Byte → Byte) :
    (s.setPortOut (s.portOut.modify k f)).Inv :=
  { h with portOut_length := (List.length_modify ..).trans h.portOut_length }

theorem State.Inv.writePortDir (h : s.Inv) (k : Nat) (f : Byte → Byte) :
    (s.setPortDir (s.portDir.modify k f)).Inv :=
  { h with portDir_length := (List.length_modify ..).trans h.portDir_length }

theorem State.Inv.logCall (h : s.Inv) (c : PinCall) : (s.logCall c).Inv := { h with }

theorem State.Inv.setTcnt_zero (h : s.Inv) : (s.setTcnt 0).Inv :=
  { h with tcnt_le := Nat.zero_le _ }

theorem State.Inv.setCmpIE_false (h : s.Inv) : (s.setCmpIE false).Inv :=
  { h with running_claimed := nofun, running_resolved := nofun }

theorem State.Inv.setChunk (h : s.Inv) {c : Nat} {r : Period} (hc : c ≤ s.cfg.cmpMax)
    (ht : s.tcnt ≤ c)
    (hr : r = 0#32 ∨ (s.cfg.cmpMax < r.toNat ∧ r.toNat ≤ s.fullPeriod.toNat)) :
    (s.setChunk c r).Inv :=
  { h with cmp_le := hc, tcnt_le := ht, extRem_legal := hr }

/-- A count computed from operands of their widths is never negative in 64 bits (R134). -/
theorem countdown_legal (cfg : Config) (f : Frequency) (d : Duration) :
    0 ≤ (countdown cfg f d).toInt ∨ countdown cfg f d = cfg.unbounded := by
  by_cases hd : d = 0#32
  · exact .inr (by rw [hd, countdown_zero])
  · left
    have bound : 2 * f.toNat * d.toNat / cfg.msPerS < 2 ^ 63 := by
      calc 2 * f.toNat * d.toNat / cfg.msPerS ≤ 2 * f.toNat * d.toNat := Nat.div_le_self _ _
        _ ≤ 2 * 2 ^ 16 * 2 ^ 32 := Nat.mul_le_mul (Nat.mul_le_mul_left 2 f.isLt.le) d.isLt.le
        _ < 2 ^ 63 := by norm_num
    rw [countdown_of_ne hd, BitVec.toInt_ofNat']
    generalize 2 * f.toNat * d.toNat / cfg.msPerS = n at bound
    rw [Int.bmod_def]
    omega

theorem State.Inv.setTc (h : s.Inv) {n : Countdown} (hn : 0 ≤ n.toInt ∨ n = s.cfg.unbounded) :
    (s.setTc n).Inv :=
  { h with tc_legal := hn }

/-- The interrupt is enabled for a claimed pin that is the resolved output (R44 (e)). -/
theorem State.Inv.setCmpIE_true (h : s.Inv) (hv : s.claimValid = true)
    (hl : pinLoc s.cfg s.claimedPin = some ⟨s.outPort, s.outMask⟩) : (s.setCmpIE true).Inv :=
  { h with running_claimed := fun _ => hv, running_resolved := fun _ => hl }

/-- Setting a period while the counter stands at 0 starts a legal half-period (R133). -/
theorem State.Inv.setPeriod (h : s.Inv) (h0 : s.tcnt = 0) (p : Period) : (setPeriod p s).Inv := by
  unfold Machine.setPeriod
  split_ifs with hf
  · exact
      { h with
        cmp_le := (fitsCmp_iff _ _).mp hf
        tcnt_le := h0.trans_le (Nat.zero_le _)
        extRem_legal := .inl rfl }
  · exact
      { h with
        cmp_le := le_rfl
        tcnt_le := h0.trans_le (Nat.zero_le _)
        extRem_legal := .inr ⟨(fitsCmp_eq_false_iff _ _).mp (by simpa using hf), le_rfl⟩ }

/-- Steps 3 to 5 of TONE_START, whatever the compare registers and the counter held (R132). -/
theorem State.Inv.programTone (h : s.Inv) (f : Frequency) (d : Duration)
    (hv : s.claimValid = true)
    (hl : pinLoc s.cfg s.claimedPin = some ⟨s.outPort, s.outMask⟩) :
    (Machine.programTone f d s).Inv := by
  have hp : ((Machine.setPeriod (periodOf s.cfg f) s).setTcnt 0).Inv := by
    rw [setPeriod_setTcnt]
    exact h.setTcnt_zero.setPeriod rfl _
  obtain ⟨c, r, hw⟩ := setPeriod_writes (periodOf s.cfg f) s
  rw [Machine.programTone, setTc_setTcnt, hw]
  rw [hw] at hp
  exact (hp.setTc (by simpa using countdown_legal s.cfg f d)).setCmpIE_true (by simpa using hv)
    (by simpa using hl)

end

/-! ### Outcomes that keep the invariant -/

/-- The outcome is a state that meets the invariant, or the command is refused. -/
def KeepsInv (r : Result) : Prop :=
  (∃ t, r = .next t ∧ t.Inv) ∨ ∃ reason, r = refuse reason

theorem keepsInv_next {t : State} (h : t.Inv) : KeepsInv (.next t) := .inl ⟨t, rfl, h⟩

theorem keepsInv_refuse (reason : RefuseReason) : KeepsInv (refuse reason) := .inr ⟨reason, rfl⟩

/-- A refusal ends in the marked state, which meets the invariant when the state before does. -/
theorem KeepsInv.settle {s : State} {r : Result} (h : s.Inv) (hr : KeepsInv r) :
    ∃ t, settle s r = .next t ∧ t.Inv := by
  obtain ⟨t, rfl, ht⟩ | ⟨reason, rfl⟩ := hr
  · exact ⟨t, rfl, ht⟩
  · exact ⟨_, rfl, h.markRefused reason⟩

/-! ### The timer and its handler -/

section
variable {s : State}

theorem toInt_sub_one_nonneg {n : Countdown} (h : 0 < n.toInt) : 0 ≤ (n - 1#64).toInt := by
  have := n.isLt
  simp only [BitVec.toInt_eq_toNat_cond] at h ⊢
  bv_omega

/-- The end check keeps the invariant: a positive count loses 1, and the interrupt is never turned on. -/
theorem State.Inv.endCheck (h : s.Inv) : KeepsInv (endCheck s) := by
  by_cases h0 : s.tc = 0#64
  · rw [endCheck_of_zero h0]
    exact keepsInv_next h.setCmpIE_false
  · rw [endCheck_of_ne h0 (h.outPort_lt.trans_eq h.portOut_length.symm)]
    refine keepsInv_next
      { h with
        portOut_length := (List.length_modify ..).trans h.portOut_length
        running_claimed := fun hr => h.running_claimed (Bool.and_eq_true_iff.mp hr).1
        running_resolved := fun hr => h.running_resolved (Bool.and_eq_true_iff.mp hr).1
        tc_legal := ?_ }
    show 0 ≤ (if s.tcPositive then s.tc - 1#64 else s.tc).toInt ∨
      (if s.tcPositive then s.tc - 1#64 else s.tc) = s.cfg.unbounded
    split_ifs with hp
    · exact .inl (toInt_sub_one_nonneg (of_decide_eq_true hp))
    · exact h.tc_legal

/-- The reload starts an extended period again at its first chunk (R164). -/
theorem State.Inv.reload (h : s.Inv) : (reload s).Inv := by
  unfold Machine.reload
  split_ifs with hf
  · exact h
  · exact h.setChunk le_rfl (h.tcnt_le.trans h.cmp_le)
      (.inr ⟨(fitsCmp_eq_false_iff _ _).mp (by simpa using hf), le_rfl⟩)

/-- A remainder that is not below the threshold is a real one: it is above `CMP_MAX`, and the period it
is left over from is extended (R168). -/
theorem State.Inv.extRem_of_not_atThreshold (h : s.Inv) (ht : s.atThreshold = false) :
    s.cfg.cmpMax < s.extRem.toNat ∧ s.extRem.toNat ≤ s.fullPeriod.toNat := by
  obtain ⟨-, hpos, -, -⟩ := configOk_bounds h.config_ok
  refine h.extRem_legal.resolve_left fun h0 => ?_
  simp only [State.atThreshold, h0, decide_eq_false_iff_not] at ht
  exact ht hpos

/-- The chunk that a bookkeeping firing takes from the remainder is there to be taken (R165, R168). -/
theorem restOf_toNat_of_not_atThreshold (h : s.Inv) (ht : s.atThreshold = false) :
    (restOf s).toNat = s.extRem.toNat - s.cfg.cmpMax := by
  obtain ⟨hlt, hle⟩ := h.extRem_of_not_atThreshold ht
  have hf : fitsCmp s.cfg s.fullPeriod = false := (fitsCmp_eq_false_iff _ _).mpr (hlt.trans_le hle)
  rw [restOf, hf, if_neg Bool.false_ne_true, lessChunk_toNat hlt.le]

theorem State.Inv.bookkeepingFiring (h : s.Inv) (h0 : s.tcnt = 0) (ht : s.atThreshold = false) :
    (bookkeepingFiring s).Inv := by
  obtain ⟨-, hle⟩ := h.extRem_of_not_atThreshold ht
  have hrest := restOf_toNat_of_not_atThreshold h ht
  rw [bookkeepingFiring_eq]
  split_ifs with hf
  · exact h.setChunk ((fitsCmp_iff _ _).mp hf) (by omega) (.inl rfl)
  · exact h.setChunk h.cmp_le h.tcnt_le
      (.inr ⟨(fitsCmp_eq_false_iff _ _).mp (by simpa using hf), by omega⟩)

theorem State.Inv.handler (h : s.Inv) (h0 : s.tcnt = 0) : KeepsInv (handler s) := by
  unfold Machine.handler
  split_ifs with ht
  · exact h.reload.endCheck
  · exact keepsInv_next (h.bookkeepingFiring h0 (by simpa using ht))

theorem State.Inv.compareMatch (h : s.Inv) : KeepsInv (compareMatch s) := by
  unfold Machine.compareMatch
  split_ifs
  · exact h.setTcnt_zero.handler rfl
  · exact keepsInv_next h.setTcnt_zero

/-- Below the compare value the counter does not wrap: it is at most `CMP_MAX` after the increment
(R44 (f)). -/
theorem State.Inv.tick (h : s.Inv) : KeepsInv (tick s) := by
  unfold Machine.tick
  split_ifs with hm
  · exact h.compareMatch
  · have hlt : s.tcnt + 1 ≤ s.cmp := Nat.lt_of_le_of_ne h.tcnt_le hm
    have hwrap : (s.tcnt + 1) % 2 ^ s.cfg.cmpWidth = s.tcnt + 1 :=
      Nat.mod_eq_of_lt (by rw [← cmpMax_succ]; exact Nat.lt_succ_of_le (hlt.trans h.cmp_le))
    exact keepsInv_next { h with tcnt_le := hwrap.trans_le hlt }

/-! ### The ring buffer -/

theorem State.Inv.execRbStore (h : s.Inv) (c : Byte) : KeepsInv (execRbStore c s) := by
  have hb := h.beginCommand
  by_cases hfull : nextIdx s.cfg s.head = s.tail
  · rw [execRbStore_of_full c hfull]
    exact keepsInv_next hb.countOverflow
  · rw [execRbStore_of_room c hfull h.head_lt]
    exact keepsInv_next ((hb.writeSlot hb.head_lt c).setHead (nextIdx_lt hb.cap_pos _))

theorem State.Inv.execRbPeek (h : s.Inv) : KeepsInv (execRbPeek s) := by
  have hb := h.beginCommand
  by_cases hempty : s.head = s.tail
  · rw [execRbPeek_of_empty hempty]
    exact keepsInv_next (hb.respond _)
  · rw [execRbPeek_of_ne hempty h.tail_lt]
    exact keepsInv_next (hb.respond _)

theorem State.Inv.execRbRead (h : s.Inv) : KeepsInv (execRbRead s) := by
  have hb := h.beginCommand
  by_cases hempty : s.head = s.tail
  · rw [execRbRead_of_empty hempty]
    exact keepsInv_next (hb.respond _)
  · rw [execRbRead_of_ne hempty h.tail_lt]
    exact keepsInv_next ((hb.setTail (nextIdx_lt hb.cap_pos _)).respond _)

theorem State.Inv.execRbOvfcount (h : s.Inv) : KeepsInv (execRbOvfcount s) := by
  unfold Machine.execRbOvfcount
  split_ifs
  · exact keepsInv_next (h.beginCommand.respond _)
  · exact keepsInv_refuse _

/-! ### Tone control -/

/-- A claim attempt on a pin of the board keeps the invariant, whether it succeeds or not (R130). -/
theorem State.Inv.claimAttempt (h : s.Inv) {pin : PinId} (hp : pin.toNat < s.cfg.numPins) :
    (claimAttempt pin s).2.Inv := by
  cases hc : s.canClaim pin with
  | true => rw [claimAttempt_of_canClaim hc]; exact h.claim hp hc
  | false => rw [claimAttempt_of_not hc]; exact h

theorem State.Inv.execToneClaim (h : s.Inv) (pin : PinId) : KeepsInv (execToneClaim pin s) := by
  cases hl : pinLoc s.cfg pin with
  | none => rw [execToneClaim_of_noPin hl]; exact keepsInv_refuse _
  | some loc =>
    rw [execToneClaim_of_pin hl]
    exact keepsInv_next ((h.beginCommand.claimAttempt (pin := pin) (pinLoc_lt hl)).respond _)

theorem State.Inv.startTone (h : s.Inv) {loc : PinLoc} (pin : PinId) (f : Frequency) (d : Duration)
    (hv : s.claimValid = true) (hp : s.claimedPin = pin) (hl : pinLoc s.cfg pin = some loc) :
    ∃ t, startTone pin loc f d s = .next t ∧ t.Inv := by
  rw [← hp] at hl
  have hout := h.setOut hl
  have hport : loc.port.toNat < s.portDir.length :=
    hout.outPort_lt.trans_eq h.portDir_length.symm
  exact ⟨_, startTone_of_lt f d hport, ((hout.writePortDir _ _).logCall _).programTone f d hv hl⟩

theorem State.Inv.execToneStart (h : s.Inv) (pin : PinId) (f : Frequency) (d : Duration) :
    KeepsInv (execToneStart pin f d s) := by
  cases hl : pinLoc s.cfg pin with
  | none => rw [execToneStart_of_noPin f d hl]; exact keepsInv_refuse _
  | some loc =>
    cases hc : s.canClaim pin with
    | false =>
      rw [execToneStart_of_not_canClaim f d hl hc]
      exact keepsInv_next (h.beginCommand.respond _)
    | true =>
      by_cases hf : f = 0#16
      · rw [hf, execToneStart_zeroFrequency d hl hc]
        exact keepsInv_refuse _
      · obtain ⟨t, ht, hi⟩ :=
          (h.beginCommand.claim (pinLoc_lt hl) hc).startTone pin f d rfl rfl hl
        rw [execToneStart_of_canClaim d hl hc hf, ht, andThen_next]
        exact keepsInv_next (hi.respond _)

theorem State.Inv.execToneStop (h : s.Inv) (pin : PinId) : KeepsInv (execToneStop pin s) := by
  cases hl : pinLoc s.cfg pin with
  | none => rw [execToneStop_of_noPin hl]; exact keepsInv_refuse _
  | some loc =>
    have hr := h.beginCommand.releaseClaim pin
    have hport : loc.port.toNat < (Machine.releaseClaim pin s.beginCommand).portOut.length := by
      rw [hr.portOut_length, releaseClaim_cfg]
      exact (pinLoc_ok h.config_ok hl).1
    rw [execToneStop_of_pin hl, pinWriteLow_of_lt hport, andThen_next]
    exact keepsInv_next (((hr.writePortOut _ _).logCall _).respond _)

/-! ### Every command, every event, every step -/

/-- No command faults in a state that meets the invariant, and none that completes breaks it. -/
theorem State.Inv.exec (h : s.Inv) (i : Instr) : KeepsInv (exec i s) := by
  cases i with
  | rbStore c => exact h.execRbStore c
  | rbAvailable => exact keepsInv_next (h.beginCommand.respond _)
  | rbPeek => exact h.execRbPeek
  | rbRead => exact h.execRbRead
  | rbFlush => exact keepsInv_next ((h.beginCommand.setTail h.head_lt).respond _)
  | rbOvfcount => exact h.execRbOvfcount
  | toneClaim pin => exact h.execToneClaim pin
  | toneStart pin f d => exact h.execToneStart pin f d
  | toneStop pin => exact h.execToneStop pin
  | toneStatus => exact keepsInv_next (h.beginCommand.respond _)
  | tmrTick => exact h.beginCommand.tick
  | tmrMatch => exact h.beginCommand.compareMatch

theorem State.Inv.runCommand (h : s.Inv) (port : Port) (w : CommandWord) :
    ∃ t, runCommand port w s = .next t ∧ t.Inv := by
  unfold Machine.runCommand
  cases decode s.cfg.hasOvfCounter port w with
  | error reason => exact ⟨_, rfl, h.markRefused reason⟩
  | ok i => exact (h.exec i).settle h

theorem State.Inv.assertReset (h : s.Inv) (contents : List Byte) : (s.assertReset contents).Inv :=
  (powerUp_inv h.config_ok (Memory.wf_ofBytes contents _) h.portOut_length
    h.portDir_length).setInbox s.inbox

theorem State.Inv.runEvent (h : s.Inv) (e : Event) : ∃ t, runEvent e s = .next t ∧ t.Inv := by
  cases e with
  | command port w => exact h.runCommand port w
  | reset contents => exact ⟨_, rfl, h.assertReset contents⟩

/-- Every step from a state that meets the invariant completes, in a state that meets it (R44, R200). -/
theorem State.Inv.step (h : s.Inv) : ∃ t, step s = .next t ∧ t.Inv := by
  cases hi : s.inbox with
  | nil => exact ⟨s, step_idle h.config_ok hi, h⟩
  | cons e rest =>
    rw [step_event h.config_ok hi]
    exact (h.setInbox rest).runEvent e

end

/-- Settles O52: the step completes in one state alone, which meets the invariant. -/
theorem stepKeepsInvariant : Obligations.StepKeepsInvariant := by
  intro s t h hst
  obtain ⟨t', ht', hi⟩ := h.step
  rw [hst] at ht'
  cases ht'
  exact hi

end Sys2Proof.Machine

/-! PROOFS. The ring buffer's indices (10_state.md R24 to R26), and the bytes that storage holds at
reset, which are never observed (R44 (c), R23): a step on two states that differ in slots that hold no
unread byte ends in two such states. -/

namespace Sys2Proof.Machine

/-! ### The available count (R26) -/

section
variable {cfg : Config} {head tail : Nat}

theorem availOf_eq_mod (hh : head < cfg.cap) (ht : tail < cfg.cap) :
    availOf cfg head tail = (cfg.cap + head - tail) % cfg.cap := by
  rw [availOf_eq hh ht]
  split_ifs with h
  · rw [show cfg.cap + head - tail = head - tail + cfg.cap by omega, Nat.add_mod_right,
      Nat.mod_eq_of_lt (by omega)]
  · rw [Nat.mod_eq_of_lt (by omega)]

theorem availOf_eq_zero_iff (hh : head < cfg.cap) (ht : tail < cfg.cap) :
    availOf cfg head tail = 0 ↔ head = tail := by
  rw [availOf_eq hh ht]
  split_ifs <;> omega

/-- One slot always stays free: the buffer is full at `CAP - 1` bytes. -/
theorem nextIdx_eq_tail_iff (hh : head < cfg.cap) (ht : tail < cfg.cap) :
    nextIdx cfg head = tail ↔ availOf cfg head tail = cfg.cap - 1 := by
  rw [nextIdx_eq hh, availOf_eq hh ht]
  split_ifs <;> omega

theorem availOf_nextIdx_head (hh : head < cfg.cap) (ht : tail < cfg.cap)
    (hfull : nextIdx cfg head ≠ tail) :
    availOf cfg (nextIdx cfg head) tail = availOf cfg head tail + 1 := by
  have hn := nextIdx_lt (Nat.zero_lt_of_lt hh) head
  rw [availOf_eq hn ht, availOf_eq hh ht]
  rw [nextIdx_eq hh] at hfull ⊢
  split_ifs at hfull ⊢ <;> omega

theorem availOf_nextIdx_tail (hh : head < cfg.cap) (ht : tail < cfg.cap) (hne : head ≠ tail) :
    availOf cfg head (nextIdx cfg tail) + 1 = availOf cfg head tail := by
  have hn := nextIdx_lt (Nat.zero_lt_of_lt ht) tail
  rw [availOf_eq hh hn, availOf_eq hh ht, nextIdx_eq ht]
  split_ifs <;> omega

end

section
variable {s : State}

theorem isEmpty_iff : s.isEmpty = true ↔ s.head = s.tail := beq_iff_eq

theorem isFull_iff : s.isFull = true ↔ nextIdx s.cfg s.head = s.tail := beq_iff_eq

/-- The slot after the last unread byte is the next to be written (R60). -/
theorem slotOf_avail (hh : s.head < s.cfg.cap) (ht : s.tail < s.cfg.cap) :
    s.slotOf s.avail = s.head := by
  rw [State.slotOf, State.avail, availOf_eq hh ht]
  split_ifs
  · rw [Nat.mod_eq_of_lt (by omega)]
    omega
  · rw [show s.tail + (s.cfg.cap + s.head - s.tail) = s.head + s.cfg.cap by omega,
      Nat.add_mod_right, Nat.mod_eq_of_lt hh]

theorem slotOf_zero (ht : s.tail < s.cfg.cap) : s.slotOf 0 = s.tail := Nat.mod_eq_of_lt ht

/-- Once the oldest byte is consumed, the k-th unread byte is the one that was the (k+1)-th. -/
theorem slotOf_setTail_nextIdx (k : Nat) :
    (s.setTail (nextIdx s.cfg s.tail)).slotOf k = s.slotOf (k + 1) := by
  show ((s.tail + 1) % s.cfg.cap + k) % s.cfg.cap = (s.tail + (k + 1)) % s.cfg.cap
  rw [Nat.mod_add_mod, Nat.add_assoc, Nat.add_comm 1 k]

end

/-- Settles O19, with the count written without integers. -/
theorem availableCountsUnread : Obligations.AvailableCountsUnread := by
  refine ⟨fun s hh ht => ?_, fun cfg m portOut portDir hc => (availOf_eq_zero_iff hc hc).mpr rfl⟩
  have hempty : s.isEmpty = true ↔ s.avail = 0 :=
    isEmpty_iff.trans (availOf_eq_zero_iff hh ht).symm
  have hfull : s.isFull = true ↔ s.avail = s.cfg.cap - 1 :=
    isFull_iff.trans (nextIdx_eq_tail_iff hh ht)
  exact ⟨availOf_eq_mod hh ht, isEmpty_iff, hempty, isFull_iff, hfull,
    Nat.le_sub_one_of_lt (availOf_lt hh ht)⟩

/-! ### Commands that do not read storage -/

/-- The outcome with the storage of its state exchanged. -/
def withStorage (m : Memory) (r : Result) : Result := andThen r fun s => .next (s.setStorage m)

/-- Neither what the effect does nor whether it completes depends on storage, which it leaves as it
is. -/
def IgnoresStorage (k : State → Result) : Prop :=
  ∀ (s : State) (m : Memory), k (s.setStorage m) = withStorage m (k s)

namespace IgnoresStorage

theorem next {f : State → State} (hf : ∀ s m, f (s.setStorage m) = (f s).setStorage m) :
    IgnoresStorage fun s => .next (f s) :=
  fun s m => congrArg Host.Outcome.next (hf s m)

theorem andThen {j k : State → Result} (hj : IgnoresStorage j) (hk : IgnoresStorage k) :
    IgnoresStorage fun s => andThen (j s) k := by
  intro s m
  show Machine.andThen (j (s.setStorage m)) k = withStorage m (Machine.andThen (j s) k)
  rw [hj s m, withStorage, withStorage, andThen_assoc, andThen_assoc]
  exact congrArg (Machine.andThen (j s)) (funext fun u => hk u m)

/-- A branch on a condition that does not depend on storage. -/
theorem ite {c : State → Prop} [DecidablePred c] {j k : State → Result}
    (hc : ∀ s m, c (s.setStorage m) ↔ c s) (hj : IgnoresStorage j) (hk : IgnoresStorage k) :
    IgnoresStorage fun s => if c s then j s else k s := by
  intro s m
  by_cases h : c s
  · simpa only [if_pos h, if_pos ((hc s m).mpr h)] using hj s m
  · simpa only [if_neg h, if_neg (mt (hc s m).mp h)] using hk s m

theorem toggleAndCount : IgnoresStorage toggleAndCount := by
  refine andThen (ite (fun _ _ => Iff.rfl) (next fun _ _ => rfl) fun _ _ => rfl) (next ?_)
  intro s m
  show (if s.tcPositive then _ else _) = State.setStorage (if s.tcPositive then _ else _) m
  split_ifs <;> rfl

theorem setCmpIE_of_tc_zero :
    IgnoresStorage fun s => .next (if s.tc = 0#64 then s.setCmpIE false else s) := by
  refine next fun s m => ?_
  show (if s.tc = 0#64 then _ else _) = State.setStorage (if s.tc = 0#64 then _ else _) m
  split_ifs <;> rfl

theorem endCheck : IgnoresStorage endCheck := by
  have after : IgnoresStorage fun s => Machine.andThen
      (if s.tc ≠ 0#64 then Machine.toggleAndCount s else .next s)
      fun s => .next (if s.tc = 0#64 then s.setCmpIE false else s) :=
    andThen (ite (fun _ _ => Iff.rfl) toggleAndCount (next fun _ _ => rfl)) setCmpIE_of_tc_zero
  have other : IgnoresStorage fun s =>
      if s.tc ≠ 0#64 then Machine.toggleAndCount s else .next (s.setCmpIE false) :=
    ite (fun _ _ => Iff.rfl) toggleAndCount (next fun _ _ => rfl)
  intro s m
  unfold Machine.endCheck
  rw [State.setStorage_cfg]
  cases s.cfg.endCheck
  · exact after s m
  · exact other s m

theorem handler : IgnoresStorage handler := by
  have toggle : IgnoresStorage toggleFiring := fun s m => by
    have hreload : reload (s.setStorage m) = (reload s).setStorage m := by
      rw [reload_eq, reload_eq]
      rfl
    show Machine.endCheck (reload (s.setStorage m)) = withStorage m (Machine.endCheck (reload s))
    rw [hreload]
    exact endCheck (reload s) m
  refine ite (fun _ _ => Iff.rfl) toggle (next fun s m => ?_)
  rw [bookkeepingFiring_eq, bookkeepingFiring_eq]
  rfl

theorem compareMatch : IgnoresStorage compareMatch :=
  ite (fun _ _ => Iff.rfl) (fun s m => handler (s.setTcnt 0) m) (next fun _ _ => rfl)

theorem tick : IgnoresStorage tick :=
  ite (fun _ _ => Iff.rfl) compareMatch (next fun _ _ => rfl)

theorem execToneClaim (pin : PinId) : IgnoresStorage (execToneClaim pin) := by
  intro s m
  cases hl : pinLoc s.cfg pin with
  | none =>
    have hl' : pinLoc (s.setStorage m).cfg pin = none := hl
    rw [execToneClaim_of_noPin hl, execToneClaim_of_noPin hl']
    rfl
  | some loc =>
    have hl' : pinLoc (s.setStorage m).cfg pin = some loc := hl
    rw [execToneClaim_of_pin hl, execToneClaim_of_pin hl']
    cases hc : s.beginCommand.canClaim pin with
    | true =>
      have hc' : (s.setStorage m).beginCommand.canClaim pin = true := hc
      rw [claimAttempt_of_canClaim hc, claimAttempt_of_canClaim hc']
      rfl
    | false =>
      have hc' : (s.setStorage m).beginCommand.canClaim pin = false := hc
      rw [claimAttempt_of_not hc, claimAttempt_of_not hc']
      rfl

theorem startTone (pin : PinId) (loc : PinLoc) (f : Frequency) (d : Duration) :
    IgnoresStorage (startTone pin loc f d) := by
  refine andThen (ite (fun _ _ => Iff.rfl) (next fun _ _ => rfl) fun _ _ => rfl) (next fun s m => ?_)
  rw [setPeriod_eq, setPeriod_eq]
  rfl

theorem execToneStart (pin : PinId) (f : Frequency) (d : Duration) :
    IgnoresStorage (execToneStart pin f d) := by
  intro s m
  cases hl : pinLoc s.cfg pin with
  | none =>
    have hl' : pinLoc (s.setStorage m).cfg pin = none := hl
    rw [execToneStart_of_noPin f d hl, execToneStart_of_noPin f d hl']
    rfl
  | some loc =>
    have hl' : pinLoc (s.setStorage m).cfg pin = some loc := hl
    cases hc : s.canClaim pin with
    | false =>
      have hc' : (s.setStorage m).canClaim pin = false := hc
      rw [execToneStart_of_not_canClaim f d hl hc, execToneStart_of_not_canClaim f d hl' hc']
      rfl
    | true =>
      have hc' : (s.setStorage m).canClaim pin = true := hc
      by_cases hf : f = 0#16
      · rw [hf, execToneStart_zeroFrequency d hl hc, execToneStart_zeroFrequency d hl' hc']
        rfl
      · rw [execToneStart_of_canClaim d hl hc hf, execToneStart_of_canClaim d hl' hc' hf]
        exact andThen (startTone pin loc f d) (next fun _ _ => rfl)
          (s.beginCommand.setClaim true pin) m

theorem execToneStop (pin : PinId) : IgnoresStorage (execToneStop pin) := by
  intro s m
  cases hl : pinLoc s.cfg pin with
  | none =>
    have hl' : pinLoc (s.setStorage m).cfg pin = none := hl
    rw [execToneStop_of_noPin hl, execToneStop_of_noPin hl']
    rfl
  | some loc =>
    have hl' : pinLoc (s.setStorage m).cfg pin = some loc := hl
    have hw : IgnoresStorage (pinWriteLow pin loc) :=
      ite (fun _ _ => Iff.rfl) (next fun _ _ => rfl) fun _ _ => rfl
    have hr : releaseClaim pin (s.setStorage m).beginCommand =
        (releaseClaim pin s.beginCommand).setStorage m := by
      show (if s.claimValid && s.claimedPin == pin then _ else _) =
        State.setStorage (if s.claimValid && s.claimedPin == pin then _ else _) m
      split_ifs <;> rfl
    rw [execToneStop_of_pin hl, execToneStop_of_pin hl', hr]
    exact andThen hw (next fun _ _ => rfl) (releaseClaim pin s.beginCommand) m

theorem execRbOvfcount : IgnoresStorage execRbOvfcount :=
  ite (fun _ _ => Iff.rfl) (next fun _ _ => rfl) fun _ _ => rfl

end IgnoresStorage

/-- RB_STORE writes storage; RB_PEEK and RB_READ read it. -/
def touchesStorage : Instr → Bool
  | .rbStore _ | .rbPeek | .rbRead => true
  | .rbAvailable | .rbFlush | .rbOvfcount | .toneClaim _ | .toneStart _ _ _ | .toneStop _
  | .toneStatus | .tmrTick | .tmrMatch => false

theorem exec_ignoresStorage {i : Instr} (hi : touchesStorage i = false) :
    IgnoresStorage (exec i) := by
  cases i with
  | rbStore c => cases hi
  | rbAvailable => exact .next fun _ _ => rfl
  | rbPeek => cases hi
  | rbRead => cases hi
  | rbFlush => exact .next fun _ _ => rfl
  | rbOvfcount => exact .execRbOvfcount
  | toneClaim pin => exact .execToneClaim pin
  | toneStart pin f d => exact .execToneStart pin f d
  | toneStop pin => exact .execToneStop pin
  | toneStatus => exact .next fun _ _ => rfl
  | tmrTick => exact fun s m => IgnoresStorage.tick s.beginCommand m
  | tmrMatch => exact fun s m => IgnoresStorage.compareMatch s.beginCommand m

/-! ### Two states with the same unread bytes -/

/-- Storage `m` holds the unread bytes of `s`. -/
def AgreesOnUnread (s : State) (m : Memory) : Prop :=
  ∀ k, k < s.avail → m.read (s.slotOf k) = s.storage.read (s.slotOf k)

/-- The second of two states that differ in free slots alone is the first with its storage exchanged. -/
theorem sameButUnread_iff {s t : State} :
    SameButUnread s t ↔ t = s.setStorage t.storage ∧ AgreesOnUnread s t.storage := Iff.rfl

theorem sameButUnread_setStorage {s : State} {m : Memory} (h : AgreesOnUnread s m) :
    SameButUnread s (s.setStorage m) := ⟨rfl, h⟩

theorem SameButUnread.refl (s : State) : SameButUnread s s := ⟨rfl, fun _ _ => rfl⟩

/-- What agrees on the unread bytes depends on the buffer alone. -/
theorem AgreesOnUnread.congr {s t : State} {m : Memory} (h : AgreesOnUnread s m)
    (hcfg : t.cfg = s.cfg) (hhead : t.head = s.head) (htail : t.tail = s.tail)
    (hstorage : t.storage = s.storage) : AgreesOnUnread t m := by
  unfold AgreesOnUnread State.avail State.slotOf at h ⊢
  rw [hcfg, hhead, htail, hstorage]
  exact h

/-- An empty buffer has no unread byte to agree on. -/
theorem AgreesOnUnread.of_empty {s : State} (m : Memory) (h : s.head = s.tail)
    (ht : s.tail < s.cfg.cap) : AgreesOnUnread s m := by
  intro k hk
  have hzero : s.avail = 0 := (availOf_eq_zero_iff (h.trans_lt ht) ht).mpr h
  omega

/-- The two outcomes are states that differ in free slots alone, or the same refusal. -/
def SameOutcome (r r' : Result) : Prop :=
  (∃ s t, r = .next s ∧ r' = .next t ∧ SameButUnread s t) ∨
    ∃ reason, r = refuse reason ∧ r' = refuse reason

theorem sameOutcome_next {s t : State} (h : SameButUnread s t) :
    SameOutcome (.next s) (.next t) := .inl ⟨s, t, rfl, rfl, h⟩

section
variable {s : State} {m : Memory}

/-- Storing a byte: both storages take it in the same slot. -/
theorem AgreesOnUnread.store (h : s.Inv) (hm : Memory.wf s.cfg.cap m = true)
    (ha : AgreesOnUnread s m) (hfull : nextIdx s.cfg s.head ≠ s.tail) (c : Byte) :
    AgreesOnUnread ((s.setStorage (s.storage.write s.head c)).setHead (nextIdx s.cfg s.head))
      (m.write s.head c) := by
  intro k hk
  show (m.write s.head c).read (s.slotOf k) = (s.storage.write s.head c).read (s.slotOf k)
  rw [Memory.read_write hm, Memory.read_write h.storage_wf]
  split_ifs with hslot
  · rfl
  · have hk' : k < s.avail + 1 := by
      rw [State.avail, ← availOf_nextIdx_head h.head_lt h.tail_lt hfull]
      exact hk
    have hne : k ≠ s.avail := fun heq => hslot (heq ▸ slotOf_avail h.head_lt h.tail_lt)
    exact ha k (by omega)

theorem execRbStore_same (h : s.Inv) (hm : Memory.wf s.cfg.cap m = true)
    (ha : AgreesOnUnread s m) (c : Byte) :
    SameOutcome (execRbStore c s) (execRbStore c (s.setStorage m)) := by
  by_cases hfull : nextIdx s.cfg s.head = s.tail
  · rw [execRbStore_of_full c hfull, execRbStore_of_full (s := s.setStorage m) c hfull,
      countOverflow_eq, countOverflow_eq]
    exact sameOutcome_next (sameButUnread_setStorage (ha.congr rfl rfl rfl rfl))
  · rw [execRbStore_of_room c hfull h.head_lt,
      execRbStore_of_room (s := s.setStorage m) c hfull h.head_lt]
    exact sameOutcome_next
      (sameButUnread_setStorage ((ha.store h hm hfull c).congr rfl rfl rfl rfl))

/-- The oldest unread byte is the same in both storages. -/
theorem AgreesOnUnread.read_tail (h : s.Inv) (ha : AgreesOnUnread s m) (hne : s.head ≠ s.tail) :
    m.read s.tail = s.storage.read s.tail := by
  have hpos : 0 < s.avail :=
    Nat.pos_of_ne_zero (mt (availOf_eq_zero_iff h.head_lt h.tail_lt).mp hne)
  rw [← slotOf_zero h.tail_lt]
  exact ha 0 hpos

theorem execRbPeek_same (h : s.Inv) (ha : AgreesOnUnread s m) :
    SameOutcome (execRbPeek s) (execRbPeek (s.setStorage m)) := by
  by_cases hempty : s.head = s.tail
  · rw [execRbPeek_of_empty hempty, execRbPeek_of_empty (s := s.setStorage m) hempty]
    exact sameOutcome_next (sameButUnread_setStorage (ha.congr rfl rfl rfl rfl))
  · rw [execRbPeek_of_ne hempty h.tail_lt, execRbPeek_of_ne (s := s.setStorage m) hempty h.tail_lt,
      State.setStorage_storage, State.setStorage_tail, ha.read_tail h hempty]
    exact sameOutcome_next (sameButUnread_setStorage (ha.congr rfl rfl rfl rfl))

/-- Consuming a byte leaves the unread bytes after it. -/
theorem AgreesOnUnread.consume (h : s.Inv) (ha : AgreesOnUnread s m) (hne : s.head ≠ s.tail) :
    AgreesOnUnread (s.setTail (nextIdx s.cfg s.tail)) m := by
  intro k hk
  rw [slotOf_setTail_nextIdx]
  refine ha (k + 1) ?_
  rw [State.avail, ← availOf_nextIdx_tail h.head_lt h.tail_lt hne]
  exact Nat.succ_lt_succ hk

theorem execRbRead_same (h : s.Inv) (ha : AgreesOnUnread s m) :
    SameOutcome (execRbRead s) (execRbRead (s.setStorage m)) := by
  by_cases hempty : s.head = s.tail
  · rw [execRbRead_of_empty hempty, execRbRead_of_empty (s := s.setStorage m) hempty]
    exact sameOutcome_next (sameButUnread_setStorage (ha.congr rfl rfl rfl rfl))
  · rw [execRbRead_of_ne hempty h.tail_lt, execRbRead_of_ne (s := s.setStorage m) hempty h.tail_lt,
      State.setStorage_storage, State.setStorage_tail, ha.read_tail h hempty]
    exact sameOutcome_next
      (sameButUnread_setStorage ((ha.consume h hempty).congr rfl rfl rfl rfl))

/-- A command that does not touch storage leaves the buffer as it is, or empties it. -/
theorem AgreesOnUnread.exec {i : Instr} {t : State} (h : s.Inv) (ha : AgreesOnUnread s m)
    (hi : touchesStorage i = false) (ht : exec i s = .next t) : AgreesOnUnread t m := by
  by_cases hflush : i = .rbFlush
  · subst hflush
    cases ht
    exact .of_empty m rfl h.head_lt
  · obtain ⟨hstore, htail, -, -, -, -, -, hcfg, -, -⟩ := fieldOwnership i s t ht
    have noStore : ¬∃ c, i = .rbStore c := by
      rintro ⟨c, rfl⟩
      cases hi
    have noRead : i ≠ .rbRead := by
      rintro rfl
      cases hi
    exact ha.congr hcfg (not_not.mp fun hne => noStore (hstore (.inl hne)))
      (not_not.mp fun hne => (htail hne).elim noRead hflush)
      (not_not.mp fun hne => noStore (hstore (.inr (.inl hne))))

/-- A command that does not touch storage completes alike on both storages, or is refused alike. -/
theorem exec_same_of_ignores {i : Instr} (h : s.Inv) (ha : AgreesOnUnread s m)
    (hi : touchesStorage i = false) : SameOutcome (exec i s) (exec i (s.setStorage m)) := by
  rw [exec_ignoresStorage hi s m]
  obtain ⟨t, ht, -⟩ | ⟨reason, hr⟩ := h.exec i
  · rw [ht]
    exact sameOutcome_next (sameButUnread_setStorage (ha.exec h hi ht))
  · exact .inr ⟨reason, hr, by rw [hr]; rfl⟩

/-- No command tells two storages with the same unread bytes apart. -/
theorem exec_same (h : s.Inv) (hm : Memory.wf s.cfg.cap m = true) (ha : AgreesOnUnread s m)
    (i : Instr) : SameOutcome (exec i s) (exec i (s.setStorage m)) := by
  cases hi : touchesStorage i with
  | false => exact exec_same_of_ignores h ha hi
  | true =>
    cases i with
    | rbStore c => exact execRbStore_same h hm ha c
    | rbPeek => exact execRbPeek_same h ha
    | rbRead => exact execRbRead_same h ha
    | _ => cases hi

theorem runCommand_same (h : s.Inv) (hm : Memory.wf s.cfg.cap m = true) (ha : AgreesOnUnread s m)
    (port : Port) (w : CommandWord) :
    ∃ u v, runCommand port w s = .next u ∧ runCommand port w (s.setStorage m) = .next v ∧
      SameButUnread u v := by
  have marked (reason : RefuseReason) :
      SameButUnread (s.markRefused reason) ((s.setStorage m).markRefused reason) :=
    sameButUnread_setStorage (ha.congr rfl rfl rfl rfl)
  unfold runCommand
  rw [State.setStorage_cfg]
  cases decode s.cfg.hasOvfCounter port w with
  | error reason => exact ⟨_, _, rfl, rfl, marked reason⟩
  | ok i =>
    dsimp only
    obtain ⟨u, v, hu, hv, huv⟩ | ⟨reason, hu, hv⟩ := exec_same h hm ha i
    · exact ⟨u, v, by rw [hu, settle_next], by rw [hv, settle_next], huv⟩
    · exact ⟨_, _, by rw [hu, settle_refuse], by rw [hv, settle_refuse], marked reason⟩

end

/-! ### Steps and runs -/

/-- One step keeps two states equal in everything but free slots. -/
theorem step_same {s t : State} (hs : s.Inv) (ht : t.Inv) (h : SameButUnread s t) :
    ∃ u v, step s = .next u ∧ step t = .next v ∧ SameButUnread u v := by
  obtain ⟨heq, ha⟩ := sameButUnread_iff.mp h
  have hcfg : t.cfg = s.cfg := by rw [heq, State.setStorage_cfg]
  have hinbox : t.inbox = s.inbox := by rw [heq, State.setStorage_inbox]
  cases hi : s.inbox with
  | nil =>
    exact ⟨s, t, step_idle hs.config_ok hi, step_idle ht.config_ok (hinbox.trans hi), h⟩
  | cons e rest =>
    rw [step_event hs.config_ok hi, step_event ht.config_ok (hinbox.trans hi)]
    have hset : t.setInbox rest = (s.setInbox rest).setStorage t.storage :=
      congrArg (State.setInbox · rest) heq
    rw [hset]
    cases e with
    | command port w =>
      exact runCommand_same (hs.setInbox rest) (hcfg ▸ ht.storage_wf)
        (ha.congr rfl rfl rfl rfl) port w
    | reset contents => exact ⟨_, _, rfl, rfl, .refl _⟩

/-- So does a run of any length, whatever events wait. -/
theorem run_same (n : Nat) {s t : State} (hs : s.Inv) (ht : t.Inv) (h : SameButUnread s t) :
    ∃ u v, Host.Core.run core n s = .next u ∧ Host.Core.run core n t = .next v ∧
      SameButUnread u v := by
  induction n generalizing s t with
  | zero => exact ⟨s, t, rfl, rfl, h⟩
  | succ n ih =>
    obtain ⟨u, v, hu, hv, huv⟩ := step_same hs ht h
    obtain ⟨x, y, hx, hy, hxy⟩ :=
      ih (stepKeepsInvariant s u hs hu) (stepKeepsInvariant t v ht hv) huv
    exact ⟨x, y, (run_succ n hu).trans hx, (run_succ n hv).trans hy, hxy⟩

/-- Settles O29: at power-up the buffer is empty, so the two blocks differ in free slots alone, and
every step keeps that. -/
theorem resetStorageUnobservable : Obligations.ResetStorageUnobservable := by
  intro cfg contents contents' portOut portDir events n hc ho hd
  have inv (bytes : List Byte) : ((State.powerUp cfg (Memory.ofBytes 0 (bytes.take cfg.cap)) portOut
      portDir).setInbox events).Inv :=
    (powerUp_inv hc (Memory.wf_ofBytes bytes _) ho hd).setInbox events
  obtain ⟨s, t, hs, ht, hst⟩ := run_same n (inv contents) (inv contents')
    (sameButUnread_setStorage (.of_empty _ rfl (inv contents).tail_lt))
  exact ⟨s, t, hs, ht, hst, (congrArg State.response hst.1).symm⟩

end Sys2Proof.Machine

/-! PROOFS. A count of 0 can run (10_state.md R44 (i), 90_conflicts.md C3): TONE_START enables the
interrupt whatever the count that it computed, and the ELSE_BRANCH reading of the end check leaves it
enabled when it takes the last toggle. -/

namespace Sys2Proof.Machine

/-- A duration too short for one toggle gives the count 0 (R134). -/
theorem countdown_eq_zero {cfg : Config} {f : Frequency} {d : Duration} (hd : d ≠ 0#32)
    (h : 2 * f.toNat * d.toNat < cfg.msPerS) : countdown cfg f d = 0#64 := by
  rw [countdown_of_ne hd, Nat.div_eq_of_lt h]

/-- A start whose claim succeeds ends with the interrupt enabled on the count that it computed (R132). -/
theorem execToneStart_runs {s t : State} {pin : PinId} {f : Frequency} {d : Duration}
    (hc : s.canClaim pin = true) (h : execToneStart pin f d s = .next t) :
    t.cmpIE = true ∧ t.tc = countdown s.cfg f d := by
  obtain ⟨-, loc, -, -, rfl⟩ | ⟨hno, -⟩ := execToneStart_eq_next h
  · exact ⟨rfl, rfl⟩
  · rw [hc] at hno
    cases hno

theorem start_runs_on_zero {s t : State} {pin : PinId} {f : Frequency} {d : Duration}
    (hc : s.canClaim pin = true) (hd : d ≠ 0#32) (hm : 2 * f.toNat * d.toNat < s.cfg.msPerS)
    (h : exec (.toneStart pin f d) s = .next t) : t.cmpIE = true ∧ t.tc = 0#64 := by
  obtain ⟨hie, htc⟩ := execToneStart_runs hc h
  exact ⟨hie, htc.trans (countdown_eq_zero hd hm)⟩

/-- In the ELSE_BRANCH reading the end check that takes the last toggle does not touch the interrupt
enable (R166). -/
theorem endCheck_elseBranch_last {s t : State} (he : s.cfg.endCheck = .elseBranch)
    (h1 : s.tc = 1#64) (h : endCheck s = .next t) : t.cmpIE = s.cmpIE ∧ t.tc = 0#64 := by
  have h0 : s.tc ≠ 0#64 := by rw [h1]; decide
  rw [endCheck_of_ne h0 (endCheck_port_lt h h0)] at h
  cases h
  simp [he, h1, State.tcPositive]

/-- TC5 of 95_test_vectors.md as the first command after reset: the word of TONE_START 9, 1, 499. -/
theorem step_reset_toneStart :
    step (State.reset.withFetchWord 64 0x80900001000001F3) =
      settle State.reset (exec (.toneStart 9#8 1#16 499#32) State.reset) := rfl

/-- Settles O55, clause by clause. -/
theorem zeroCountCanRun : Obligations.ZeroCountCanRun := by
  refine ⟨fun s t pin f d => start_runs_on_zero, ?_, ?_⟩
  · obtain ⟨t, ht⟩ : ∃ t, exec (.toneStart 9#8 1#16 499#32) State.reset = .next t := ⟨_, rfl⟩
    exact ⟨t, by rw [step_reset_toneStart, ht, settle_next],
      start_runs_on_zero rfl (by decide) (by decide) ht⟩
  · intro s t he h1 hfires h
    obtain ⟨⟨hie, -⟩, hthr⟩ : (s.cmpIE = true ∧ s.matchesOn .compare = true) ∧
        s.atThreshold = true := by
      simpa only [State.firesToggle, Bool.and_eq_true] using hfires
    have hend : endCheck (reload (s.beginCommand.setTcnt 0)) = .next t :=
      (compareMatch_of_threshold (s := s.beginCommand) hie hthr).symm.trans h
    rw [reload_eq] at hend
    obtain ⟨hie', htc⟩ := endCheck_elseBranch_last (by simpa using he) (by simpa using h1) hend
    exact ⟨hie'.trans hie, htc⟩

end Sys2Proof.Machine

/-! PROOFS. The ring buffer as a bounded queue (20_memory.md R60): what each command does
to the unread bytes. -/

namespace Sys2Proof.Machine

section
variable {s t : State}

/-! ### The unread bytes -/

@[simp] theorem length_buffered (s : State) : s.buffered.length = s.avail := by
  simp [State.buffered]

/-- The queue depends on the configuration, the indices and storage alone. -/
theorem buffered_congr (hcfg : t.cfg = s.cfg) (hhead : t.head = s.head) (htail : t.tail = s.tail)
    (hstorage : t.storage = s.storage) : t.buffered = s.buffered := by
  simp only [State.buffered, State.avail, State.slotOf, hcfg, hhead, htail, hstorage]

theorem buffered_of_empty (hempty : s.head = s.tail) (ht : s.tail < s.cfg.cap) :
    s.buffered = [] := by
  rw [← List.length_eq_zero_iff, length_buffered]
  exact (availOf_eq_zero_iff (hempty.trans_lt ht) ht).mpr hempty

/-- The oldest byte stands in slot `tail`, and the others are what is left once `tail` advances. -/
theorem buffered_of_ne (hh : s.head < s.cfg.cap) (ht : s.tail < s.cfg.cap)
    (hne : s.head ≠ s.tail) :
    s.buffered = s.storage.read s.tail :: (s.setTail (nextIdx s.cfg s.tail)).buffered := by
  have hcount : s.avail = (s.setTail (nextIdx s.cfg s.tail)).avail + 1 :=
    (availOf_nextIdx_tail hh ht hne).symm
  simp only [State.buffered, hcount, List.range_succ_eq_map, List.map_cons, List.map_map,
    slotOf_zero ht]
  simp only [Function.comp_def, Nat.succ_eq_add_one, slotOf_setTail_nextIdx, State.setTail_storage]

/-- The slot that the next store writes holds no unread byte. -/
theorem slotOf_ne_head (hh : s.head < s.cfg.cap) (ht : s.tail < s.cfg.cap) {k : Nat}
    (hk : k < s.avail) : s.slotOf k ≠ s.head := by
  intro heq
  have hlt : s.avail < s.cfg.cap := availOf_lt hh ht
  have hmod : s.tail + k ≡ s.tail + s.avail [MOD s.cfg.cap] :=
    heq.trans (slotOf_avail hh ht).symm
  have hsame : k = s.avail :=
    (hmod.add_left_cancel' s.tail).eq_of_lt_of_lt (hk.trans hlt) hlt
  omega

/-- A byte written in slot `head` joins the queue as its newest once `head` advances. -/
theorem buffered_write_head (h : s.Inv) (hroom : nextIdx s.cfg s.head ≠ s.tail) (c : Byte) :
    ((s.setStorage (s.storage.write s.head c)).setHead (nextIdx s.cfg s.head)).buffered =
      s.buffered ++ [c] := by
  have hcount : ((s.setStorage (s.storage.write s.head c)).setHead
      (nextIdx s.cfg s.head)).avail = s.avail + 1 :=
    availOf_nextIdx_head h.head_lt h.tail_lt hroom
  have hread (j : Nat) := Memory.read_write h.storage_wf s.head c j
  rw [State.buffered, hcount, List.range_succ, List.map_append, List.map_singleton]
  congr 1
  · refine List.map_congr_left fun k hk => ?_
    exact (hread _).trans (if_neg (slotOf_ne_head h.head_lt h.tail_lt (List.mem_range.mp hk)))
  · exact congrArg (fun b => [b]) ((hread _).trans (if_pos (slotOf_avail h.head_lt h.tail_lt)))

/-! ### The commands on the queue -/

/-- RB_STORE appends its byte, unless `CAP - 1` bytes are held already (R101). -/
theorem execRbStore_buffered (h : s.Inv) {c : Byte} (hs : execRbStore c s = .next t) :
    t.buffered = if s.avail < s.cfg.cap - 1 then s.buffered ++ [c] else s.buffered := by
  have hlt : s.avail < s.cfg.cap := availOf_lt h.head_lt h.tail_lt
  have hfull : nextIdx s.cfg s.head = s.tail ↔ s.avail = s.cfg.cap - 1 :=
    nextIdx_eq_tail_iff h.head_lt h.tail_lt
  by_cases hf : nextIdx s.cfg s.head = s.tail
  · rw [execRbStore_of_full c hf, countOverflow_eq] at hs
    cases hs
    rw [if_neg (show ¬s.avail < s.cfg.cap - 1 by rw [hfull.mp hf]; exact lt_irrefl _)]
    exact buffered_congr rfl rfl rfl rfl
  · rw [execRbStore_of_room c hf h.head_lt] at hs
    cases hs
    have hne : s.avail ≠ s.cfg.cap - 1 := mt hfull.mpr hf
    rw [if_pos (by omega)]
    exact buffered_write_head h.beginCommand hf c

/-- RB_PEEK answers the oldest byte and leaves the queue alone (R103). -/
theorem execRbPeek_buffered (h : s.Inv) (hp : execRbPeek s = .next t) :
    t.buffered = s.buffered ∧
      t.response = some (s.buffered.head?.elim s.cfg.emptyResponse (·.setWidth 32)) := by
  by_cases hempty : s.head = s.tail
  · rw [execRbPeek_of_empty hempty] at hp
    cases hp
    exact ⟨buffered_congr rfl rfl rfl rfl, by rw [buffered_of_empty hempty h.tail_lt]; rfl⟩
  · rw [execRbPeek_of_ne hempty h.tail_lt] at hp
    cases hp
    exact ⟨buffered_congr rfl rfl rfl rfl,
      by rw [buffered_of_ne h.head_lt h.tail_lt hempty]; rfl⟩

/-- RB_READ answers the oldest byte and removes it (R104). -/
theorem execRbRead_buffered (h : s.Inv) (hr : execRbRead s = .next t) :
    t.buffered = s.buffered.tail ∧
      t.response = some (s.buffered.head?.elim s.cfg.emptyResponse (·.setWidth 32)) := by
  by_cases hempty : s.head = s.tail
  · have hnil := buffered_of_empty hempty h.tail_lt
    rw [execRbRead_of_empty hempty] at hr
    cases hr
    rw [hnil]
    exact ⟨(buffered_congr rfl rfl rfl rfl).trans hnil, rfl⟩
  · rw [execRbRead_of_ne hempty h.tail_lt] at hr
    cases hr
    rw [buffered_of_ne h.head_lt h.tail_lt hempty]
    exact ⟨buffered_congr rfl rfl rfl rfl, rfl⟩

/-- Every command but RB_STORE, RB_READ and RB_FLUSH leaves the indices and storage, and so the
queue. -/
theorem exec_keepsBuffered {i : Instr} (hstore : ∀ c, i ≠ .rbStore c) (hread : i ≠ .rbRead)
    (hflush : i ≠ .rbFlush) (ht : exec i s = .next t) : t.buffered = s.buffered := by
  obtain ⟨howned, htail, -, -, -, -, -, hcfg, -, -⟩ := fieldOwnership i s t ht
  have noStore : ¬∃ c, i = .rbStore c := fun ⟨c, hc⟩ => hstore c hc
  exact buffered_congr hcfg (not_not.mp fun hne => noStore (howned (.inl hne)))
    (not_not.mp fun hne => (htail hne).elim hread hflush)
    (not_not.mp fun hne => noStore (howned (.inr (.inl hne))))

end

/-- Settles O26: one lemma for each command that acts on the queue, and the frame for the others. -/
theorem bufferRefinesQueue : Obligations.BufferRefinesQueue := by
  intro s t i h ht
  refine ⟨length_buffered s, ?_⟩
  cases i with
  | rbStore c =>
    rw [length_buffered]
    exact execRbStore_buffered h ht
  | rbRead =>
    obtain ⟨hqueue, hresponse⟩ := execRbRead_buffered h ht
    exact ⟨hqueue, by rw [hresponse]; cases s.buffered.head? <;> rfl⟩
  | rbPeek =>
    obtain ⟨hqueue, hresponse⟩ := execRbPeek_buffered h ht
    exact ⟨hqueue, by rw [hresponse]; cases s.buffered.head? <;> rfl⟩
  | rbFlush =>
    cases ht
    exact buffered_of_empty rfl h.head_lt
  | _ => exact exec_keepsBuffered (by simp) (by simp) (by simp) ht

end Sys2Proof.Machine

/-! PROOFS. The source's interleaved software (20_memory.md R66): what a window of receive events
does to a state, and the atomic orders that the software operations equal. -/

namespace Sys2Proof.Machine

/-! ### Windows of receive events -/

/-- `u` is what some stores make of `s`: `tail` stands, and the queue only grows at its end. -/
structure Extends (s u : State) : Prop where
  inv : u.Inv
  cfg_eq : u.cfg = s.cfg
  tail_eq : u.tail = s.tail
  buffered_grows : s.buffered <+: u.buffered

section
variable {s t u : State}

theorem Extends.refl (h : s.Inv) : Extends s s := ⟨h, rfl, rfl, List.prefix_rfl⟩

theorem Extends.trans (h : Extends s t) (h' : Extends t u) : Extends s u :=
  ⟨h'.inv, h'.cfg_eq.trans h.cfg_eq, h'.tail_eq.trans h.tail_eq,
    h.buffered_grows.trans h'.buffered_grows⟩

/-- A buffer that holds a byte still holds it after stores, in the same slot. -/
theorem Extends.read_tail (h : Extends s u) (hs : s.Inv) (hne : s.head ≠ s.tail) :
    u.head ≠ u.tail ∧ u.storage.read u.tail = s.storage.read s.tail := by
  have hgrows := h.buffered_grows
  rw [buffered_of_ne hs.head_lt hs.tail_lt hne] at hgrows
  have hne' : u.head ≠ u.tail := fun hempty => by
    rw [buffered_of_empty hempty h.inv.tail_lt] at hgrows
    exact absurd hgrows.length_le (by simp)
  rw [buffered_of_ne h.inv.head_lt h.inv.tail_lt hne'] at hgrows
  exact ⟨hne', (List.cons_prefix_cons.mp hgrows).1.symm⟩

/-- RB_STORE is never refused, and completes from every state that meets the invariant (R101). -/
theorem execRbStore_completes (h : s.Inv) (c : Byte) :
    ∃ t, execRbStore c s = .next t ∧ t.Inv := by
  obtain hnext | ⟨reason, hrefused⟩ := h.execRbStore c
  · exact hnext
  · exfalso
    by_cases hf : nextIdx s.cfg s.head = s.tail
    · rw [execRbStore_of_full c hf] at hrefused
      cases hrefused
    · rw [execRbStore_of_room c hf h.head_lt] at hrefused
      cases hrefused

theorem execRbStore_extends (h : s.Inv) (c : Byte) :
    ∃ t, execRbStore c s = .next t ∧ Extends s t := by
  obtain ⟨t, ht, hinv⟩ := execRbStore_completes h c
  have hframe := execRbStore_frame ht
  refine ⟨t, ht, hinv, by rw [hframe]; rfl, by rw [hframe]; rfl, ?_⟩
  rw [execRbStore_buffered h ht]
  split_ifs
  · exact List.prefix_append _ _
  · exact List.prefix_rfl

/-- A window of stores completes, whatever bytes it holds. -/
theorem storeAll_extends (window : List Byte) {s : State} (h : s.Inv) :
    ∃ u, storeAll window s = .next u ∧ Extends s u := by
  induction window generalizing s with
  | nil => exact ⟨s, rfl, .refl h⟩
  | cons c rest ih =>
    obtain ⟨t, ht, hst⟩ := execRbStore_extends h c
    obtain ⟨u, hu, htu⟩ := ih hst.inv
    exact ⟨u, by rw [storeAll, ht, andThen_next, hu], hst.trans htu⟩

theorem storeAll_append (window window' : List Byte) (s : State) :
    storeAll (window ++ window') s = andThen (storeAll window s) (storeAll window') := by
  induction window generalizing s with
  | nil => rfl
  | cons c rest ih =>
    rw [List.cons_append, storeAll, storeAll, andThen_assoc]
    exact congrArg (andThen _) (funext ih)

/-- No store reads the outputs that the command before it left. -/
theorem storeAll_quiet {window : List Byte} (hq : s.quiet = t.quiet)
    (hu : storeAll window s = .next u) :
    ∃ v, storeAll window t = .next v ∧ u.quiet = v.quiet := by
  cases window with
  | nil =>
    cases hu
    exact ⟨t, rfl, hq⟩
  | cons c rest =>
    have hstore : execRbStore c t = execRbStore c s :=
      (congrArg (execRbStore c) hq).symm
    exact ⟨u, by rw [storeAll, hstore]; exact hu, rfl⟩

/-- A store that is not dropped leaves one byte more. -/
theorem execRbStore_avail (h : s.Inv) {c : Byte} (hroom : s.avail < s.cfg.cap - 1)
    (ht : execRbStore c s = .next t) : t.avail = s.avail + 1 := by
  rw [← length_buffered t, execRbStore_buffered h ht, if_pos hroom, List.length_append,
    length_buffered, List.length_singleton]

/-- A store that is dropped neither before nor after `tail` is moved does not depend on where it
stands. -/
theorem execRbStore_setTail {i : Nat} (h : s.Inv) (hi : i < s.cfg.cap) {c : Byte}
    (hroom : s.avail < s.cfg.cap - 1) (hroom' : (s.setTail i).avail < s.cfg.cap - 1)
    (ht : execRbStore c s = .next t) : execRbStore c (s.setTail i) = .next (t.setTail i) := by
  have notFull {j : Nat} (hj : j < s.cfg.cap) (hr : availOf s.cfg s.head j < s.cfg.cap - 1) :
      nextIdx s.cfg s.head ≠ j := fun hf =>
    absurd ((nextIdx_eq_tail_iff h.head_lt hj).mp hf) hr.ne
  rw [execRbStore_of_room c (notFull h.tail_lt hroom) h.head_lt] at ht
  cases ht
  exact execRbStore_of_room (s := s.setTail i) c (notFull hi hroom') h.head_lt

/-- So do the stores of a window that fits in the room before and after. -/
theorem storeAll_setTail {window : List Byte} {s u : State} {i : Nat} (h : s.Inv)
    (hi : i < s.cfg.cap) (hroom : window.length + s.avail ≤ s.cfg.cap - 1)
    (hroom' : window.length + (s.setTail i).avail ≤ s.cfg.cap - 1)
    (hu : storeAll window s = .next u) : storeAll window (s.setTail i) = .next (u.setTail i) := by
  induction window generalizing s with
  | nil =>
    cases hu
    rfl
  | cons c rest ih =>
    rw [List.length_cons] at hroom hroom'
    obtain ⟨t, ht, hst⟩ := execRbStore_extends h c
    have ht' := execRbStore_setTail h hi (c := c) (by omega) (by omega) ht
    have havail := execRbStore_avail h (by omega) ht
    have havail' := execRbStore_avail (h.setTail hi) (by rw [State.setTail_cfg]; omega) ht'
    rw [storeAll, ht, andThen_next] at hu
    rw [storeAll, ht', andThen_next]
    have hcap : t.cfg.cap = s.cfg.cap := congrArg Config.cap hst.cfg_eq
    exact ih hst.inv (by omega) (by omega) (by omega) hu

end

/-! ### The software operations -/

section
variable {s u : State} {window : List Byte}

/-- Stores after an atomic command that only responds leave, outputs apart, what they leave without
it. -/
theorem storeAll_after_respond (hu : storeAll window s = .next u) (r : Response) :
    ∃ v, storeAll window (s.beginCommand.respond r) = .next v ∧ u.quiet = v.quiet :=
  storeAll_quiet (s := s) rfl hu

/-- `available` answers the count of the `head` that it read, since no store moves `tail`. -/
theorem softAvailable_linearises (window : List Byte) (h : s.Inv) :
    ∃ t a u, softAvailable window s = .next t ∧ exec .rbAvailable s = .next a ∧
      t.response = a.response ∧ storeAll window a = .next u ∧ t.quiet = u.quiet := by
  obtain ⟨u, hu, hsu⟩ := storeAll_extends window h
  obtain ⟨v, hv, hquiet⟩ := storeAll_after_respond hu (availResponse s.avail)
  refine ⟨u.beginCommand.respond (availResponse s.avail), _, v, ?_, rfl, rfl, hv, hquiet⟩
  rw [softAvailable, hu, andThen_next, hsu.cfg_eq, hsu.tail_eq, State.avail]

/-- `peek` answers the byte that was the oldest at its empty test. -/
theorem softPeek_linearises (window : List Byte) (h : s.Inv) :
    ∃ t a u, softPeek window s = .next t ∧ exec .rbPeek s = .next a ∧
      t.response = a.response ∧ storeAll window a = .next u ∧ t.quiet = u.quiet := by
  obtain ⟨u, hu, hsu⟩ := storeAll_extends window h
  by_cases hempty : s.head = s.tail
  · obtain ⟨v, hv, hquiet⟩ := storeAll_after_respond hu s.cfg.emptyResponse
    refine ⟨u.beginCommand.respond s.cfg.emptyResponse, _, v, ?_, execRbPeek_of_empty hempty, rfl,
      hv, hquiet⟩
    simp [softPeek, hu, isEmpty_iff.mpr hempty, hsu.cfg_eq]
  · obtain ⟨-, hread⟩ := hsu.read_tail h hempty
    obtain ⟨v, hv, hquiet⟩ := storeAll_after_respond hu ((s.storage.read s.tail).setWidth 32)
    refine ⟨u.beginCommand.respond ((s.storage.read s.tail).setWidth 32), _, v, ?_,
      execRbPeek_of_ne hempty h.tail_lt, rfl, hv, hquiet⟩
    have hmem := memRead_of_lt (s := u.beginCommand) hsu.inv.tail_lt
    simp [softPeek, hu, mt isEmpty_iff.mp hempty, hmem, hread]

/-- `read` on an empty buffer comes before the stores of both windows. -/
theorem softRead_linearises_empty (window window' : List Byte) (h : s.Inv)
    (hempty : s.head = s.tail) :
    ∃ t a u, softRead window window' s = .next t ∧ exec .rbRead s = .next a ∧
      t.response = a.response ∧ storeAll (window ++ window') a = .next u ∧
      t.quiet = u.quiet := by
  obtain ⟨u, hu, hsu⟩ := storeAll_extends window h
  obtain ⟨w, hw, huw⟩ := storeAll_extends window' hsu.inv
  have hall : storeAll (window ++ window') s = .next w := by
    rw [storeAll_append, hu, andThen_next, hw]
  obtain ⟨v, hv, hquiet⟩ := storeAll_after_respond hall s.cfg.emptyResponse
  refine ⟨w.beginCommand.respond s.cfg.emptyResponse, _, v, ?_, execRbRead_of_empty hempty, rfl,
    hv, hquiet⟩
  simp [softRead, hu, hw, isEmpty_iff.mpr hempty, huw.cfg_eq, hsu.cfg_eq]

/-- `read` on a buffer that holds a byte comes after the stores of both windows: they leave the byte
and its slot as they were. -/
theorem softRead_linearises_ne (window window' : List Byte) (h : s.Inv) (hne : s.head ≠ s.tail) :
    softRead window window' s = andThen (storeAll (window ++ window') s) (exec .rbRead) := by
  obtain ⟨u, hu, hsu⟩ := storeAll_extends window h
  obtain ⟨w, hw, huw⟩ := storeAll_extends window' hsu.inv
  obtain ⟨hne', -⟩ := hsu.read_tail h hne
  obtain ⟨hne'', hread⟩ := huw.read_tail hsu.inv hne'
  have hatomic : exec .rbRead w = _ := execRbRead_of_ne hne'' huw.inv.tail_lt
  rw [storeAll_append, hu, andThen_next, hw, andThen_next, hatomic, hread]
  simp [softRead, hu, hw, mt isEmpty_iff.mp hne, memRead_of_lt hsu.inv.tail_lt]

/-- The stores of a window after an atomic flush leave what they leave before the software's write
of `tail`: when the buffer was empty `tail` stands there already, and when none is dropped no store
depends on where it stands. -/
theorem storeAll_after_flush (h : s.Inv)
    (hroom : s.head = s.tail ∨ window.length ≤ s.cfg.cap - 1 - s.avail)
    (hu : storeAll window s = .next u) :
    storeAll window (s.setTail s.head) = .next (u.setTail s.head) := by
  obtain hempty | hfits := hroom
  · obtain ⟨u', hu', hsu⟩ := storeAll_extends window h
    obtain rfl : u' = u := Host.Outcome.next.inj (hu'.symm.trans hu)
    have hsame (x : State) (hx : x.tail = s.head) : x.setTail s.head = x := by
      rw [State.setTail, ← hx]
    rw [hsame s hempty.symm, hsame u' (hsu.tail_eq.trans hempty.symm), hu]
  · have havail : s.avail ≤ s.cfg.cap - 1 := Nat.le_sub_one_of_lt (availOf_lt h.head_lt h.tail_lt)
    have hflushed : (s.setTail s.head).avail = 0 :=
      (availOf_eq_zero_iff h.head_lt h.head_lt).mpr rfl
    exact storeAll_setTail h h.head_lt (by omega) (by omega) hu

end

/-- Settles O56, one operation after the other. -/
theorem softwareReadsLinearise : Obligations.SoftwareReadsLinearise := fun _ window window' h =>
  ⟨softAvailable_linearises window h, softPeek_linearises window h,
    softRead_linearises_empty window window' h, softRead_linearises_ne window window' h⟩

/-- Settles O57: the software's write of `tail` commutes with the stores of the window. -/
theorem softwareFlushLinearises : Obligations.SoftwareFlushLinearises := by
  intro s window h
  obtain ⟨u, hu, -⟩ := storeAll_extends window h
  have hsoft : softFlush window s = .next ((u.beginCommand.setTail s.head).respond 0#32) := by
    rw [softFlush, hu, andThen_next]
  refine ⟨⟨_, hsoft, rfl, rfl⟩, fun hroom => ?_⟩
  obtain ⟨v, hv, hquiet⟩ := storeAll_after_respond (storeAll_after_flush h hroom hu) 0#32
  exact ⟨_, _, v, hsoft, rfl, hv, hquiet⟩

end Sys2Proof.Machine

/-! PROOFS. Words on a byte-wide link (20_memory.md R52), and the step that runs a command
word (R58). -/

namespace Sys2Proof

/-! ### Bytes of a word (R52) -/

section
variable {width : Nat} (w : BitVec width)

@[simp] theorem length_bytesOf (n : Nat) : (bytesOf w n).length = n := by
  simp [bytesOf]

theorem getElem?_bytesOf {n k : Nat} (hk : k < n) :
    (bytesOf w n)[k]? = some (w.extractLsb' (8 * k) 8) := by
  simp [bytesOf, hk]

theorem bytesOf_succ (n : Nat) : bytesOf w (n + 1) = bytesOf w n ++ [w.extractLsb' (8 * n) 8] := by
  simp [bytesOf, List.range_succ]

end

/-- A byte that arrives after others counts in the next place of base 256. -/
theorem natOfBytes_concat (bytes : List Byte) (b : Byte) :
    natOfBytes (bytes ++ [b]) = natOfBytes bytes + 2 ^ (8 * bytes.length) * b.toNat := by
  induction bytes with
  | nil => simp [natOfBytes]
  | cons c rest ih =>
    rw [List.cons_append, natOfBytes, natOfBytes, ih, List.length_cons, Nat.mul_succ, Nat.pow_add]
    ring

/-- The low `n` bytes of a word spell its value modulo `2 ^ (8 n)`. -/
theorem natOfBytes_bytesOf {width : Nat} (w : BitVec width) (n : Nat) :
    natOfBytes (bytesOf w n) = w.toNat % 2 ^ (8 * n) := by
  induction n with
  | zero => simp [bytesOf, natOfBytes, Nat.mod_one]
  | succ n ih =>
    rw [bytesOf_succ, natOfBytes_concat, ih, length_bytesOf, BitVec.extractLsb'_toNat,
      Nat.shiftRight_eq_div_pow, Nat.mul_succ, Nat.pow_add, Nat.mod_mul]

/-- All bytes of a word spell its value. -/
theorem natOfBytes_all (n : Nat) (w : BitVec (8 * n)) : natOfBytes (bytesOf w n) = w.toNat := by
  rw [natOfBytes_bytesOf, Nat.mod_eq_of_lt w.isLt]

theorem takeCommandWord_commandBytes (w : CommandWord) (rest : List Byte) :
    takeCommandWord (commandBytes w ++ rest) = some (w, rest) := by
  have hlength : (commandBytes w).length = 8 := length_bytesOf w 8
  have hword : BitVec.ofNat 64 (natOfBytes (commandBytes w)) = w := by
    rw [commandBytes, natOfBytes_all 8 w, BitVec.ofNat_toNat, BitVec.setWidth_eq]
  rw [takeCommandWord, if_neg (by simp [hlength]), List.take_left' hlength,
    List.drop_left' hlength, hword]

/-- Settles O7. -/
theorem byteLinkRoundTrip : Obligations.ByteLinkRoundTrip :=
  ⟨fun w rest => ⟨length_bytesOf w 8, fun _ hk => getElem?_bytesOf w hk,
      takeCommandWord_commandBytes w rest⟩,
    fun r => ⟨length_bytesOf r 4, natOfBytes_all 4 r⟩⟩

end Sys2Proof

namespace Sys2Proof.Machine

/-! ### The step on a command word (R58) -/

/-- A word that decodes is run by its command's meaning, and a refusal of the meaning is settled. -/
theorem step_command {s : State} {port : Port} {w : CommandWord} {rest : List Event} {i : Instr}
    (hc : configOk s.cfg = true) (hi : s.inbox = .command port w :: rest)
    (hd : decode s.cfg.hasOvfCounter port w = .ok i) :
    step s = settle (s.setInbox rest) (exec i (s.setInbox rest)) := by
  rw [step_event hc hi, runEvent, runCommand, State.setInbox_cfg, hd]

/-- Settles O10: settling keeps a next state and a fault, and marks the state on a refusal. -/
theorem stepRunsDecodedCommand : Obligations.StepRunsDecodedCommand := by
  intro s port w rest i hc hi hd
  have hstep := step_command hc hi hd
  refine ⟨fun t ht => ?_, fun f hf => ?_, fun r hr => ?_⟩
  · exact hstep.trans (congrArg (settle _) ht)
  · exact hstep.trans (congrArg (settle _) hf)
  · exact hstep.trans (congrArg (settle _) hr)

end Sys2Proof.Machine

/-! PROOFS. The indices of the ring buffer (20_memory.md R51): how a command may move them, and that
no storage access is out of range. -/

namespace Sys2Proof.Machine

section
variable {s t : State}

/-! ### How a command moves the indices -/

theorem execRbStore_head {c : Byte} (h : execRbStore c s = .next t) :
    t.head = s.head ∨ t.head = nextIdx s.cfg s.head := by
  unfold execRbStore at h
  dsimp only at h
  split_ifs at h
  · rw [← Host.Outcome.next.inj h, countOverflow_eq]
    exact .inl rfl
  · obtain ⟨u, -, hk⟩ := andThen_eq_next.mp h
    cases hk
    exact .inr rfl

theorem execRbRead_tail (h : execRbRead s = .next t) :
    t.tail = s.tail ∨ t.tail = nextIdx s.cfg s.tail := by
  unfold execRbRead at h
  dsimp only at h
  split_ifs at h
  · cases h
    exact .inl rfl
  · obtain ⟨-, hk⟩ := memRead_eq_next.mp h
    cases hk
    exact .inr rfl

theorem exec_head {i : Instr} (h : exec i s = .next t) :
    t.head = s.head ∨ t.head = nextIdx s.cfg s.head := by
  by_cases hmoved : t.head = s.head
  · exact .inl hmoved
  · obtain ⟨howned, -⟩ := fieldOwnership i s t h
    obtain ⟨c, rfl⟩ := howned (.inl hmoved)
    exact execRbStore_head h

theorem exec_tail {i : Instr} (h : exec i s = .next t) :
    t.tail = s.tail ∨ t.tail = nextIdx s.cfg s.tail ∨ t.tail = s.head := by
  by_cases hmoved : t.tail = s.tail
  · exact .inl hmoved
  · obtain ⟨-, howned, -⟩ := fieldOwnership i s t h
    obtain rfl | rfl := howned hmoved
    · exact (execRbRead_tail h).imp_right .inl
    · cases h
      exact .inr (.inr rfl)

end

/-! ### Outcomes that are no fault of a storage access -/

/-- The outcome is not an access to a slot that does not exist. -/
def NoSlotFault (r : Result) : Prop := ∀ k, r ≠ .fault (.slotOutOfRange k)

theorem noSlotFault_next (s : State) : NoSlotFault (.next s) := nofun

theorem noSlotFault_refuse (reason : RefuseReason) : NoSlotFault (refuse reason) := nofun

theorem NoSlotFault.andThen {r : Result} {k : State → Result} (hr : NoSlotFault r)
    (hk : ∀ s, NoSlotFault (k s)) : NoSlotFault (andThen r k) := by
  cases r with
  | next s => exact hk s
  | fault f => exact hr
  | refused x => exact nofun

section
variable (s : State)

/-! ### The pin layer, the timer and the tone commands -/

theorem noSlotFault_pinConfigOutput (pin : PinId) (loc : PinLoc) :
    NoSlotFault (pinConfigOutput pin loc s) := by
  unfold pinConfigOutput
  split_ifs <;> exact nofun

theorem noSlotFault_pinWriteLow (pin : PinId) (loc : PinLoc) :
    NoSlotFault (pinWriteLow pin loc s) := by
  unfold pinWriteLow
  split_ifs <;> exact nofun

theorem noSlotFault_pinToggle (pt : PortId) (m : PortMask) : NoSlotFault (pinToggle pt m s) := by
  unfold pinToggle
  split_ifs <;> exact nofun

theorem noSlotFault_endCheck : NoSlotFault (endCheck s) := by
  have htoggle : NoSlotFault (toggleAndCount s) :=
    (noSlotFault_pinToggle s s.outPort s.outMask).andThen fun _ => noSlotFault_next _
  unfold endCheck
  cases s.cfg.endCheck with
  | afterDecrement =>
    refine NoSlotFault.andThen ?_ fun _ => noSlotFault_next _
    split_ifs
    · exact htoggle
    · exact noSlotFault_next s
  | elseBranch =>
    dsimp only
    split_ifs
    · exact htoggle
    · exact noSlotFault_next _

theorem noSlotFault_compareMatch : NoSlotFault (compareMatch s) := by
  unfold compareMatch handler toggleFiring
  split_ifs
  · exact noSlotFault_endCheck _
  · exact noSlotFault_next _
  · exact noSlotFault_next _

theorem noSlotFault_tick : NoSlotFault (tick s) := by
  unfold tick
  split_ifs
  · exact noSlotFault_compareMatch s
  · exact noSlotFault_next _

theorem noSlotFault_execToneClaim (pin : PinId) : NoSlotFault (execToneClaim pin s) := by
  cases hl : pinLoc s.cfg pin with
  | none => rw [execToneClaim_of_noPin hl]; exact noSlotFault_refuse _
  | some loc => rw [execToneClaim_of_pin hl]; exact noSlotFault_next _

theorem noSlotFault_execToneStart (pin : PinId) (f : Frequency) (d : Duration) :
    NoSlotFault (execToneStart pin f d s) := by
  cases hl : pinLoc s.cfg pin with
  | none => rw [execToneStart_of_noPin f d hl]; exact noSlotFault_refuse _
  | some loc =>
    cases hc : s.canClaim pin with
    | false => rw [execToneStart_of_not_canClaim f d hl hc]; exact noSlotFault_next _
    | true =>
      by_cases hf : f = 0#16
      · rw [hf, execToneStart_zeroFrequency d hl hc]
        exact noSlotFault_refuse _
      · rw [execToneStart_of_canClaim d hl hc hf]
        exact ((noSlotFault_pinConfigOutput _ pin loc).andThen fun _ => noSlotFault_next _).andThen
          fun _ => noSlotFault_next _

theorem noSlotFault_execToneStop (pin : PinId) : NoSlotFault (execToneStop pin s) := by
  cases hl : pinLoc s.cfg pin with
  | none => rw [execToneStop_of_noPin hl]; exact noSlotFault_refuse _
  | some loc =>
    rw [execToneStop_of_pin hl]
    exact (noSlotFault_pinWriteLow _ pin loc).andThen fun _ => noSlotFault_next _

theorem noSlotFault_execRbOvfcount : NoSlotFault (execRbOvfcount s) := by
  unfold execRbOvfcount
  split_ifs
  · exact noSlotFault_next _
  · exact noSlotFault_refuse _

end

/-! ### The commands that access storage -/

section
variable {s : State}

theorem noSlotFault_execRbStore (c : Byte) (hh : s.head < s.cfg.cap) :
    NoSlotFault (execRbStore c s) := by
  by_cases hf : nextIdx s.cfg s.head = s.tail
  · rw [execRbStore_of_full c hf]
    exact noSlotFault_next _
  · rw [execRbStore_of_room c hf hh]
    exact noSlotFault_next _

theorem noSlotFault_execRbPeek (ht : s.tail < s.cfg.cap) : NoSlotFault (execRbPeek s) := by
  by_cases hempty : s.head = s.tail
  · rw [execRbPeek_of_empty hempty]
    exact noSlotFault_next _
  · rw [execRbPeek_of_ne hempty ht]
    exact noSlotFault_next _

theorem noSlotFault_execRbRead (ht : s.tail < s.cfg.cap) : NoSlotFault (execRbRead s) := by
  by_cases hempty : s.head = s.tail
  · rw [execRbRead_of_empty hempty]
    exact noSlotFault_next _
  · rw [execRbRead_of_ne hempty ht]
    exact noSlotFault_next _

/-- With both indices in range no command accesses a slot that does not exist. -/
theorem noSlotFault_exec (hh : s.head < s.cfg.cap) (ht : s.tail < s.cfg.cap) (i : Instr) :
    NoSlotFault (exec i s) := by
  cases i with
  | rbStore c => exact noSlotFault_execRbStore c hh
  | rbAvailable => exact noSlotFault_next _
  | rbPeek => exact noSlotFault_execRbPeek ht
  | rbRead => exact noSlotFault_execRbRead ht
  | rbFlush => exact noSlotFault_next _
  | rbOvfcount => exact noSlotFault_execRbOvfcount s
  | toneClaim pin => exact noSlotFault_execToneClaim s pin
  | toneStart pin f d => exact noSlotFault_execToneStart s pin f d
  | toneStop pin => exact noSlotFault_execToneStop s pin
  | toneStatus => exact noSlotFault_next _
  | tmrTick => exact noSlotFault_tick _
  | tmrMatch => exact noSlotFault_compareMatch _

end

/-- Settles O28: the step of an index, the moves of a command, and the storage accesses. -/
theorem indicesWrapInRange : Obligations.IndicesWrapInRange :=
  ⟨fun _ i hi => ⟨rfl, nextIdx_lt (Nat.zero_lt_of_lt hi) i⟩,
    fun _ _ _ h => ⟨exec_head h, exec_tail h⟩,
    fun _ i k hh ht => noSlotFault_exec hh ht i k⟩

end Sys2Proof.Machine

/-! PROOFS. Idempotency (20_memory.md R55): what a command does when it is repeated on the state
that it left. -/

namespace Sys2Proof.Machine

section
variable {s t : State}

/-! ### The commands that only respond -/

/-- No command reads the outputs of the command before it. -/
theorem exec_beginCommand (i : Instr) (s : State) : exec i s.beginCommand = exec i s := by
  cases i <;> rfl

/-- States that differ in their outputs alone are the same to every command. -/
theorem exec_of_quiet_eq (i : Instr) (h : s.quiet = t.quiet) : exec i s = exec i t :=
  (exec_beginCommand i s).symm.trans ((congrArg (exec i) h).trans (exec_beginCommand i t))

/-- A command that changes no state gives the same response when it is repeated. -/
theorem exec_repeat_of_quiet {i : Instr} (hquiet : t.quiet = s.quiet) (h : exec i s = .next t) :
    exec i t = .next t :=
  (exec_of_quiet_eq i hquiet).trans h

/-- The commands that own no register change nothing but the outputs. -/
theorem exec_readOnly {i : Instr}
    (hi : i = .rbPeek ∨ i = .rbAvailable ∨ i = .rbOvfcount ∨ i = .toneStatus)
    (h : exec i s = .next t) : t.quiet = s.quiet := by
  have hframe := exec_frame h
  obtain rfl | rfl | rfl | rfl := hi <;> rw [hframe] <;> rfl

/-! ### Setting and clearing bits -/

/-- Changing a port twice by an idempotent map is changing it once. -/
theorem modify_modify_of_idem {f : Byte → Byte} (hf : ∀ b, f (f b) = f b) (l : List Byte)
    (k : Nat) : (l.modify k f).modify k f = l.modify k f := by
  rw [List.modify_modify_eq]
  exact congrArg (l.modify k) (funext hf)

theorem or_or_mask (m b : Byte) : b ||| m ||| m = b ||| m := by
  rw [BitVec.or_assoc, BitVec.or_self]

theorem and_and_mask (m b : Byte) : b &&& m &&& m = b &&& m := by
  rw [BitVec.and_assoc, BitVec.and_self]

/-! ### TONE_CLAIM and TONE_STOP -/

theorem execToneClaim_of_canClaim {pin : PinId} {loc : PinLoc} (hl : pinLoc s.cfg pin = some loc)
    (hc : s.canClaim pin = true) :
    execToneClaim pin s = .next ((s.beginCommand.setClaim true pin).respond 1#32) := by
  rw [execToneClaim_of_pin hl, claimAttempt_of_canClaim (s := s.beginCommand) hc, if_pos rfl]

theorem execToneClaim_of_not_canClaim {pin : PinId} {loc : PinLoc}
    (hl : pinLoc s.cfg pin = some loc) (hc : s.canClaim pin = false) :
    execToneClaim pin s = .next (s.beginCommand.respond 0#32) := by
  rw [execToneClaim_of_pin hl, claimAttempt_of_not (s := s.beginCommand) hc,
    if_neg Bool.false_ne_true]

/-- The pin that holds the claim may claim again (R130). -/
theorem canClaim_of_held {pin : PinId} (h : s.claimedPin = pin) : s.canClaim pin = true := by
  simp [State.canClaim, h]

/-- A claim attempt is decided alike when it is repeated, and then changes nothing. -/
theorem execToneClaim_repeat {pin : PinId} (h : execToneClaim pin s = .next t) :
    execToneClaim pin t = .next t := by
  cases hl : pinLoc s.cfg pin with
  | none => rw [execToneClaim_of_noPin hl] at h; cases h
  | some loc =>
    cases hc : s.canClaim pin with
    | false =>
      rw [execToneClaim_of_not_canClaim hl hc] at h
      cases h
      exact execToneClaim_of_not_canClaim (s := s.beginCommand.respond 0#32) hl hc
    | true =>
      rw [execToneClaim_of_canClaim hl hc] at h
      cases h
      exact execToneClaim_of_canClaim
        (s := (s.beginCommand.setClaim true pin).respond 1#32) hl (canClaim_of_held rfl)

theorem releaseClaim_of_not {pin : PinId} (h : s.claimValid = true → s.claimedPin ≠ pin) :
    releaseClaim pin s = s := by
  simpa [releaseClaim] using fun hv hp => absurd hp (h hv)

/-- After a release the pin does not hold the claim. -/
theorem releaseClaim_not_held (pin : PinId) (s : State)
    (hv : (releaseClaim pin s).claimValid = true) : (releaseClaim pin s).claimedPin ≠ pin := by
  unfold releaseClaim at hv ⊢
  split_ifs at hv ⊢ with h
  · cases hv
  · simpa [hv] using h

/-- What a TONE_STOP that completes leaves, for a pin at a place of the pin layer (R135). -/
def stoppedTone (pin : PinId) (loc : PinLoc) (s : State) : State :=
  (((releaseClaim pin s.beginCommand).setPortOut
    (s.portOut.modify loc.port.toNat (· &&& ~~~loc.mask))).logCall (.writeLow pin)).respond 0#32

theorem execToneStop_eq_next {pin : PinId} :
    execToneStop pin s = .next t ↔ ∃ loc, pinLoc s.cfg pin = some loc ∧
      loc.port.toNat < s.portOut.length ∧ t = stoppedTone pin loc s := by
  cases hl : pinLoc s.cfg pin with
  | none => simp [execToneStop_of_noPin hl, refuse]
  | some loc =>
    have hports : (releaseClaim pin s.beginCommand).portOut = s.portOut := by
      rw [releaseClaim_eq, State.beginCommand_portOut]
    simp only [execToneStop_of_pin hl, andThen_eq_next, pinWriteLow_eq_next, hports]
    constructor
    · rintro ⟨_, ⟨hport, rfl⟩, hrespond⟩
      cases hrespond
      exact ⟨loc, rfl, hport, rfl⟩
    · rintro ⟨_, hloc, hport, rfl⟩
      cases hloc
      exact ⟨_, ⟨hport, rfl⟩, rfl⟩

/-- A repeated stop finds no claim to release and the pin's bit clear. -/
theorem stoppedTone_repeat (pin : PinId) (loc : PinLoc) (s : State) :
    stoppedTone pin loc (stoppedTone pin loc s) = stoppedTone pin loc s := by
  have hreleased : releaseClaim pin (stoppedTone pin loc s).beginCommand =
      (stoppedTone pin loc s).beginCommand :=
    releaseClaim_of_not (by simpa [stoppedTone] using releaseClaim_not_held pin s.beginCommand)
  have hports : (stoppedTone pin loc s).portOut.modify loc.port.toNat (· &&& ~~~loc.mask) =
      (stoppedTone pin loc s).portOut :=
    modify_modify_of_idem (f := (· &&& ~~~loc.mask)) (and_and_mask _) s.portOut loc.port.toNat
  conv_lhs => rw [stoppedTone, hreleased, hports]
  rw [stoppedTone, releaseClaim_eq]
  rfl

theorem execToneStop_repeat {pin : PinId} (h : execToneStop pin s = .next t) :
    execToneStop pin t = .next t := by
  obtain ⟨loc, hl, hport, rfl⟩ := execToneStop_eq_next.mp h
  refine execToneStop_eq_next.mpr ⟨loc, ?_, ?_, (stoppedTone_repeat pin loc s).symm⟩
  · rw [stoppedTone, releaseClaim_eq]
    exact hl
  · exact hport.trans_eq (List.length_modify ..).symm

/-! ### TONE_START -/

/-- Programming a tone leaves registers that depend on the configuration and the operands alone. -/
theorem programTone_eq (f : Frequency) (d : Duration) (s : State) :
    programTone f d s = { s with
      cmp := if fitsCmp s.cfg (periodOf s.cfg f) then (periodOf s.cfg f).toNat else s.cfg.cmpMax
      extRem := if fitsCmp s.cfg (periodOf s.cfg f) then 0#32 else periodOf s.cfg f
      fullPeriod := periodOf s.cfg f, tc := countdown s.cfg f d, tcnt := 0, cmpIE := true } := by
  rw [programTone, setPeriod_eq]
  simp only [State.setFullPeriod, State.setChunk, State.setTc, State.setTcnt, State.setCmpIE]

/-- What a TONE_START whose claim succeeds leaves, for a pin at a place of the pin layer (R132). -/
def startedTone (pin : PinId) (loc : PinLoc) (f : Frequency) (d : Duration) (s : State) : State :=
  (programTone f d (makeOutput pin loc (s.beginCommand.setClaim true pin))).respond 0#32

section
variable (pin : PinId) (loc : PinLoc) (f : Frequency) (d : Duration) (s : State)

@[simp] theorem startedTone_cfg : (startedTone pin loc f d s).cfg = s.cfg := by
  simp [startedTone, programTone_eq, makeOutput]

@[simp] theorem startedTone_claimedPin : (startedTone pin loc f d s).claimedPin = pin := by
  simp [startedTone, programTone_eq, makeOutput]

@[simp] theorem startedTone_portDir : (startedTone pin loc f d s).portDir =
    s.portDir.modify loc.port.toNat (· ||| loc.mask) := by
  simp [startedTone, programTone_eq, makeOutput]

end

theorem execToneStart_eq_next_of_canClaim {pin : PinId} {f : Frequency} {d : Duration}
    (hc : s.canClaim pin = true) :
    execToneStart pin f d s = .next t ↔ ∃ loc, pinLoc s.cfg pin = some loc ∧ f ≠ 0#16 ∧
      loc.port.toNat < s.portDir.length ∧ t = startedTone pin loc f d s := by
  constructor
  · intro h
    obtain ⟨-, loc, hl, hf, ht⟩ | ⟨hno, -⟩ := execToneStart_eq_next h
    · rw [execToneStart_of_canClaim d hl hc hf] at h
      obtain ⟨u, hu, -⟩ := andThen_eq_next.mp h
      obtain ⟨v, hv, -⟩ := andThen_eq_next.mp hu
      exact ⟨loc, hl, hf, (pinConfigOutput_eq_next.mp hv).1, ht⟩
    · rw [hc] at hno
      cases hno
  · rintro ⟨loc, hl, hf, hport, rfl⟩
    have hport' : loc.port.toNat < (s.beginCommand.setClaim true pin).portDir.length := hport
    rw [execToneStart_of_canClaim d hl hc hf, startTone_of_lt f d hport', andThen_next, startedTone]

/-- A start repeated on the tone that it started, wherever the counter stands, starts that tone. -/
theorem startedTone_repeat (pin : PinId) (loc : PinLoc) (f : Frequency) (d : Duration) (s : State)
    (k : Nat) :
    startedTone pin loc f d ((startedTone pin loc f d s).setTcnt k) =
      startedTone pin loc f d s := by
  have hdir := modify_modify_of_idem (f := (· ||| loc.mask)) (or_or_mask _) s.portDir
    loc.port.toNat
  have hmake : makeOutput pin loc
      (((startedTone pin loc f d s).setTcnt k).beginCommand.setClaim true pin) =
        (programTone f d (makeOutput pin loc (s.beginCommand.setClaim true pin))).setTcnt k := by
    rw [startedTone, programTone_eq]
    simp [makeOutput, hdir, State.setPortDir, State.logCall, State.setOut, State.setTcnt,
      State.respond, State.setClaim, State.beginCommand]
  rw [startedTone, hmake, programTone_eq, programTone_eq, startedTone, programTone_eq]
  rfl

theorem execToneStart_repeat {pin : PinId} {f : Frequency} {d : Duration}
    (hc : s.canClaim pin = true) (h : execToneStart pin f d s = .next t) (k : Nat) :
    execToneStart pin f d (t.setTcnt k) = .next t := by
  obtain ⟨loc, hl, hf, hport, rfl⟩ := (execToneStart_eq_next_of_canClaim hc).mp h
  have hc' : ((startedTone pin loc f d s).setTcnt k).canClaim pin = true :=
    canClaim_of_held (startedTone_claimedPin pin loc f d s)
  exact (execToneStart_eq_next_of_canClaim hc').mpr
    ⟨loc, by simpa using hl, hf, by simpa using hport, (startedTone_repeat pin loc f d s k).symm⟩

/-- A start that lost the claim loses it again. -/
theorem execToneStart_repeat_lost {pin : PinId} {f : Frequency} {d : Duration}
    (hc : s.canClaim pin = false) (h : execToneStart pin f d s = .next t) :
    execToneStart pin f d t = .next t := by
  obtain ⟨hyes, -⟩ | ⟨-, rfl⟩ := execToneStart_eq_next h
  · rw [hc] at hyes
    cases hyes
  · exact exec_repeat_of_quiet (i := .toneStart pin f d) rfl h

/-! ### The whole of R55 -/

theorem exec_idempotent {i : Instr}
    (hi : i = .rbFlush ∨ (∃ pin, i = .toneStop pin) ∨ (∃ pin, i = .toneClaim pin) ∨
      ∃ pin f d, i = .toneStart pin f d) (h : exec i s = .next t) : exec i t = .next t := by
  obtain rfl | ⟨pin, rfl⟩ | ⟨pin, rfl⟩ | ⟨pin, f, d, rfl⟩ := hi
  · cases h
    rfl
  · exact execToneStop_repeat h
  · exact execToneClaim_repeat h
  · cases hc : s.canClaim pin with
    | true => exact execToneStart_repeat hc h t.tcnt
    | false => exact execToneStart_repeat_lost hc h

/-- RB_READ of a buffer that holds a byte consumes it (R104). -/
theorem execRbRead_consumes (h : s.Inv) (hne : s.avail ≠ 0) :
    ∃ t, exec .rbRead s = .next t ∧ t.tail = nextIdx s.cfg s.tail ∧ t.avail + 1 = s.avail := by
  have hne' : s.head ≠ s.tail := mt (availOf_eq_zero_iff h.head_lt h.tail_lt).mpr hne
  exact ⟨_, execRbRead_of_ne hne' h.tail_lt, rfl, availOf_nextIdx_tail h.head_lt h.tail_lt hne'⟩

end

/-! ### The commands that are not idempotent -/

/-- An unbounded tone on pin 0 of the configuration of 95_test_vectors.md section 0, with compare
value 1. -/
def unboundedTone : State :=
  { State.reset with
    claimValid := true, outMask := 1#8, fullPeriod := 1#32, cmp := 1
    tc := Config.vectors.unbounded, cmpIE := true }

/-- The second of two stores into the empty buffer takes the next slot. -/
theorem rbStore_not_idempotent (c : Byte) :
    ∃ s t u : State, exec (.rbStore c) s = .next t ∧ exec (.rbStore c) t = .next u ∧
      u.quiet ≠ t.quiet :=
  ⟨State.reset, _, _, rfl, rfl, fun h => absurd (show 2 = 1 from congrArg State.head h) (by decide)⟩

/-- The second of two ticks matches and restarts the counter. -/
theorem tmrTick_not_idempotent :
    ∃ s t u : State, exec .tmrTick s = .next t ∧ exec .tmrTick t = .next u ∧ u.quiet ≠ t.quiet :=
  ⟨unboundedTone, _, _, rfl, rfl, fun h => absurd (congrArg State.tcnt h) (by decide)⟩

/-- The second of two matches toggles the pin back. -/
theorem tmrMatch_not_idempotent :
    ∃ s t u : State, exec .tmrMatch s = .next t ∧ exec .tmrMatch t = .next u ∧
      u.quiet ≠ t.quiet :=
  ⟨unboundedTone, _, _, rfl, rfl, fun h => absurd (congrArg State.portOut h) (by decide)⟩

/-- Settles O50, clause by clause. -/
theorem idempotency : Obligations.Idempotency := by
  refine ⟨fun i s t hi h => ?_, fun i s t hi => exec_idempotent hi,
    fun s t pin f d k hc h => execToneStart_repeat hc h k, fun s => execRbRead_consumes, ?_⟩
  · have hquiet := exec_readOnly hi h
    exact ⟨hquiet, exec_repeat_of_quiet hquiet h⟩
  · rintro i (⟨c, rfl⟩ | rfl | rfl)
    · exact rbStore_not_idempotent c
    · exact tmrTick_not_idempotent
    · exact tmrMatch_not_idempotent

end Sys2Proof.Machine

/-! PROOFS. The encoding (30_encoding.md): decoding and encoding invert each other (R71 to R74),
each refusal of decoding has exactly its cause (R75 to R77), and the assembler's operand checks
(R81, R82). -/

namespace Sys2Proof

/-! ### The fields of an encoded command (R71, R72) -/

/-- The word that a format lays out from an opcode and the operands of R73, of which it takes those
it has fields for. -/
def Format.word (fmt : Format) (op : BitVec 4) (c : Byte) (pin : PinId) (f : Frequency)
    (d : Duration) : CommandWord :=
  match fmt with
  | .n => formatN op
  | .d => formatD op c
  | .p => formatP op pin
  | .t => formatT op pin f d

/-- A command is encoded in the format of its mnemonic. -/
theorem encode_withOperands (m : Mnemonic) (c : Byte) (pin : PinId) (f : Frequency) (d : Duration) :
    encode (m.withOperands c pin f d) = m.format.word m.opcode c pin f d := by
  cases m <;> rfl

/-- The opcode and the must-be-zero bits of every encoded command. -/
theorem encodedFields (i : Instr) : Laws.EncodedFields.Statement i := by
  cases i with
  | rbStore c => exact Laws.EncodedFields.rbStore c
  | rbAvailable => exact Laws.EncodedFields.rbAvailable
  | rbPeek => exact Laws.EncodedFields.rbPeek
  | rbRead => exact Laws.EncodedFields.rbRead
  | rbFlush => exact Laws.EncodedFields.rbFlush
  | rbOvfcount => exact Laws.EncodedFields.rbOvfcount
  | toneClaim pin => exact Laws.EncodedFields.toneClaim pin
  | toneStart pin f d => exact Laws.EncodedFields.toneStart pin f d
  | toneStop pin => exact Laws.EncodedFields.toneStop pin
  | toneStatus => exact Laws.EncodedFields.toneStatus
  | tmrTick => exact Laws.EncodedFields.tmrTick
  | tmrMatch => exact Laws.EncodedFields.tmrMatch

/-- The operands are recovered from the fields of the encoded word. -/
theorem withOperands_encode (i : Instr) :
    i.mnemonic.withOperands (fieldData (encode i)) (fieldPin (encode i)) (fieldFreq (encode i))
      (fieldDur (encode i)) = i := by
  cases i with
  | rbStore c => exact congrArg Instr.rbStore (formatD_data _ c)
  | toneClaim pin => exact congrArg Instr.toneClaim (formatP_pin _ pin)
  | toneStop pin => exact congrArg Instr.toneStop (formatP_pin _ pin)
  | toneStart pin f d =>
    exact congr (congr (congrArg Instr.toneStart (formatT_pin _ pin f d)) (formatT_freq _ pin f d))
      (formatT_dur _ pin f d)
  | rbAvailable | rbPeek | rbRead | rbFlush | rbOvfcount | toneStatus | tmrTick | tmrMatch => rfl

/-- Only RB_OVFCOUNT needs more than its opcode: the overflow counter (R75). -/
theorem wellFormed_iff {cfg : Config} {i : Instr} :
    i.wellFormed cfg = true ↔ (i.mnemonic = .rbOvfcount → cfg.hasOvfCounter = true) := by
  cases i with
  | rbOvfcount => exact ⟨fun h _ => h, fun h => h rfl⟩
  | rbStore _ | rbAvailable | rbPeek | rbRead | rbFlush | toneClaim _ | toneStart _ _ _ | toneStop _
  | toneStatus | tmrTick | tmrMatch => exact ⟨nofun, fun _ => rfl⟩

/-- Settles O1: the opcode, the must-be-zero bits and the operands of an encoded word are those of
its command. -/
theorem decodeEncodeRoundTrip : Obligations.DecodeEncodeRoundTrip := by
  intro cfg i hi
  obtain ⟨hop, hzero⟩ := encodedFields i
  have hm : mnemonicOf cfg.hasOvfCounter (fieldOp (encode i)) = some i.mnemonic :=
    (mnemonicOf_eq_some _ _ _).mpr ⟨hop, wellFormed_iff.mp hi⟩
  have hport : ¬ i.port ≠ i.mnemonic.port := not_not.mpr rfl
  rw [decode_of_mnemonic hm, if_neg hport, hzero, if_neg Bool.true_eq_false.mp,
    withOperands_encode i]

/-- With the overflow counter, a word that spells a command decodes to it on the command's port. -/
theorem decode_of_encode_eq {i : Instr} {w : CommandWord} (hw : encode i = w) :
    decode true i.port w = .ok i :=
  hw ▸ decodeEncodeRoundTrip Config.vectors i (wellFormed_iff.mpr fun _ => rfl)

/-- Settles O6: each word is the encoding of its command. -/
theorem exampleWordsDecode : Obligations.ExampleWordsDecode :=
  ⟨decode_of_encode_eq (i := .rbStore 0x41#8) (by decide),
    decode_of_encode_eq (i := .rbRead) (by decide),
    decode_of_encode_eq (i := .toneClaim 9#8) (by decide),
    decode_of_encode_eq (i := .toneStart 9#8 440#16 1000#32) (by decide),
    decode_of_encode_eq (i := .tmrTick) (by decide)⟩

/-! ### A word from its fields -/

/-- A word whose must-be-zero bits are zero is laid out from its own fields. -/
theorem word_of_fields {w : CommandWord} {fmt : Format} (h : reservedBitsZero w fmt = true) :
    fmt.word (fieldOp w) (fieldData w) (fieldPin w) (fieldFreq w) (fieldDur w) = w := by
  have join (lo a b : Nat) :
      w.extractLsb' (lo + a) b ++ w.extractLsb' lo a = w.extractLsb' lo (b + a) :=
    BitVec.extractLsb'_append_extractLsb'_eq_extractLsb' rfl
  cases fmt with
  | n =>
    have hzero : w.extractLsb' 0 60 = 0#60 := beq_iff_eq.mp h
    show w.extractLsb' 60 4 ++ 0#60 = w
    rw [← hzero]
    exact (join 0 60 4).trans (extract_all w)
  | d =>
    have hzero : w.extractLsb' 8 52 = 0#52 := beq_iff_eq.mp h
    show w.extractLsb' 60 4 ++ 0#52 ++ w.extractLsb' 0 8 = w
    rw [← hzero, join 8 52 4]
    exact (join 0 8 56).trans (extract_all w)
  | p =>
    have hzero : w.extractLsb' 0 52 = 0#52 := beq_iff_eq.mp h
    show w.extractLsb' 60 4 ++ w.extractLsb' 52 8 ++ 0#52 = w
    rw [← hzero, join 52 8 4]
    exact (join 0 52 12).trans (extract_all w)
  | t =>
    have hzero : w.extractLsb' 48 4 = 0#4 := beq_iff_eq.mp h
    show w.extractLsb' 60 4 ++ w.extractLsb' 52 8 ++ 0#4 ++ w.extractLsb' 32 16 ++
      w.extractLsb' 0 32 = w
    rw [← hzero, join 52 8 4, join 48 4 12, join 32 16 16]
    exact (join 0 32 32).trans (extract_all w)

/-- Settles O2: the operands are the word's own fields, so laying them out again gives the word. -/
theorem decodedWordIsEncoding : Obligations.DecodedWordIsEncoding := by
  intro cfg port w i h
  obtain ⟨m, hm, hport, hzero, rfl⟩ := decode_eq_ok h
  obtain ⟨hop, hovf⟩ := (mnemonicOf_eq_some _ _ _).mp hm
  have hword :
      encode (m.withOperands (fieldData w) (fieldPin w) (fieldFreq w) (fieldDur w)) = w := by
    rw [encode_withOperands, ← hop, word_of_fields hzero]
  refine ⟨hword.symm, ?_, ?_⟩
  · rw [Instr.port, withOperands_mnemonic, hport]
  · rw [wellFormed_iff, withOperands_mnemonic]
    exact hovf

/-! ### The refusals of decoding (R75 to R77) -/

/-- Decoding refuses a word as reserved only for its opcode. -/
theorem decode_eq_reservedOpcode {hasOvf : Bool} {port : Port} {w : CommandWord} :
    decode hasOvf port w = .error .reservedOpcode ↔ mnemonicOf hasOvf (fieldOp w) = none := by
  refine ⟨fun h => ?_, decode_error_reservedOpcode⟩
  cases hm : mnemonicOf hasOvf (fieldOp w) with
  | none => rfl
  | some m =>
    rw [decode_of_mnemonic hm] at h
    split_ifs at h <;> cases h

theorem decode_eq_wrongPort {hasOvf : Bool} {port : Port} {w : CommandWord} {m : Mnemonic}
    (hm : mnemonicOf hasOvf (fieldOp w) = some m) :
    decode hasOvf port w = .error .wrongPort ↔ port ≠ m.port := by
  rw [decode_of_mnemonic hm]
  split_ifs with hport hzero <;> simp [hport]

theorem decode_eq_nonzeroReserved {hasOvf : Bool} {w : CommandWord} {m : Mnemonic}
    (hm : mnemonicOf hasOvf (fieldOp w) = some m) :
    decode hasOvf m.port w = .error .nonzeroReserved ↔ reservedBitsZero w m.format = false := by
  rw [decode_of_mnemonic hm, if_neg (not_not.mpr rfl)]
  split_ifs with hzero <;> simp [hzero]

/-- Settles O3, from the reserved opcodes of the opcode map. -/
theorem reservedOpcodeRefused : Obligations.ReservedOpcodeRefused := by
  refine ⟨fun hasOvf port w => ?_, fun hasOvf port => ?_, fun hasOvf port w h => ?_⟩
  · rw [decode_eq_reservedOpcode, mnemonicOf_eq_none, and_comm (a := hasOvf = false)]
  · exact decode_error_reservedOpcode ((mnemonicOf_eq_none hasOvf _).mpr (.inl rfl))
  · obtain ⟨m, hm⟩ := Option.ne_none_iff_exists'.mp (mt decode_eq_reservedOpcode.mpr h)
    exact ⟨m, ((mnemonicOf_eq_some _ _ _).mp hm).1⟩

/-- The port table of R77. -/
theorem port_table (m : Mnemonic) :
    (m.port = .rx ↔ m = .rbStore) ∧ (m.port = .tmr ↔ m = .tmrTick ∨ m = .tmrMatch) ∧
      (m.port = .fg ↔ m = .rbAvailable ∨ m = .rbPeek ∨ m = .rbRead ∨ m = .rbFlush ∨
        m = .rbOvfcount ∨ m = .toneClaim ∨ m = .toneStart ∨ m = .toneStop ∨ m = .toneStatus) := by
  cases m <;> decide

/-- Settles O4, with the port table. -/
theorem wrongPortRefused : Obligations.WrongPortRefused :=
  ⟨fun _ _ _ _ hm => decode_eq_wrongPort hm, port_table⟩

/-- A field is nonzero exactly when one of the word's bits at its places is set. -/
theorem extract_nonzero_iff {n start len : Nat} (w : BitVec n) {place : Nat → Prop}
    (hplace : ∀ k, place k ↔ start ≤ k ∧ k < start + len) :
    (w.extractLsb' start len == 0#len) = false ↔ ∃ k, place k ∧ w.getLsbD k = true := by
  rw [beq_eq_false_iff_ne]
  constructor
  · intro hne
    by_contra hnone
    refine hne (BitVec.eq_of_getLsbD_eq fun j hj => ?_)
    have hbit : w.getLsbD (start + j) = false :=
      eq_false_of_ne_true fun hset => hnone ⟨start + j, (hplace _).mpr (by omega), hset⟩
    simp [hbit]
  · rintro ⟨k, hk, hset⟩ hzero
    obtain ⟨hlow, hhigh⟩ := (hplace k).mp hk
    have hbit := congrArg (BitVec.getLsbD · (k - start)) hzero
    simp [Nat.add_sub_cancel' hlow, hset, show k - start < len by omega] at hbit

/-- The must-be-zero bits of R76, one by one. -/
theorem reservedBitsZero_eq_false {w : CommandWord} {fmt : Format} :
    reservedBitsZero w fmt = false ↔ ∃ k, Machine.mustBeZero fmt k ∧ w.getLsbD k = true := by
  cases fmt <;> exact extract_nonzero_iff w fun k => by simp only [Machine.mustBeZero]; omega

/-- Settles O5: the field of the must-be-zero bits is nonzero. -/
theorem nonzeroReservedRefused : Obligations.NonzeroReservedRefused := fun _ _ _ hm =>
  (decode_eq_nonzeroReserved hm).trans reservedBitsZero_eq_false

end Sys2Proof

namespace Sys2Proof.Machine

/-! ### The assembler (R81, R82) -/

section
variable {m : Mnemonic}

/-- An operand of format D or P is one byte. -/
theorem assembleCommand_d (hm : m.format = .d) (c : Nat) : assembleCommand m [c] =
    if 255 < c then none else some (m.withOperands (BitVec.ofNat 8 c) 0 0 0) := by
  simp only [assembleCommand, hm, ← not_le, ite_not]

theorem assembleCommand_p (hm : m.format = .p) (pin : Nat) : assembleCommand m [pin] =
    if 255 < pin then none else some (m.withOperands 0 (BitVec.ofNat 8 pin) 0 0) := by
  simp only [assembleCommand, hm, ← not_le, ite_not]

theorem assembleCommand_t (hm : m.format = .t) (pin freq dur : Nat) :
    assembleCommand m [pin, freq, dur] =
      if 255 < pin ∨ 65535 < freq ∨ 2 ^ 32 - 1 < dur then none
      else some
        (m.withOperands 0 (BitVec.ofNat 8 pin) (BitVec.ofNat 16 freq) (BitVec.ofNat 32 dur)) := by
  simp only [assembleCommand, hm, ← not_le, ← not_and_or, ite_not]

/-- A repeating pseudo-instruction stands for `n` times the command of its mnemonic (R82). -/
theorem assembleLine_repeat {name : String} {i : Instr} {n : Nat} (hn : 1 ≤ n)
    (hname : asmNames.lookup name = none) (hrepeat : asmRepeatNames.lookup name = some m)
    (hi : assembleCommand m [] = some i) :
    assembleLine ⟨name, [n]⟩ = some (List.replicate n i) := by
  simp [assembleLine, hname, hrepeat, hn, hi]

end

/-- Settles O8, one format at a time. -/
theorem assemblerChecksOperands : Obligations.AssemblerChecksOperands :=
  ⟨assembleCommand_d rfl, fun pin => ⟨assembleCommand_p rfl pin, assembleCommand_p rfl pin⟩,
    assembleCommand_t rfl, fun _ hn =>
      ⟨assembleLine_repeat (m := .tmrTick) hn (by decide) (by decide) rfl,
        assembleLine_repeat (m := .tmrMatch) hn (by decide) (by decide) rfl⟩⟩

end Sys2Proof.Machine

/-! PROOFS. The response words (30_encoding.md R79, R80): a byte or `EMPTY`, and the status word. -/

namespace Sys2Proof.Machine

/-! ### Byte responses (R79) -/

/-- The response of RB_PEEK and RB_READ: `EMPTY`, or the byte of the slot at `tail`, zero-extended
(R79). -/
def State.byteResponse (s : State) : Response :=
  if s.head = s.tail then s.cfg.emptyResponse else (s.storage.read s.tail).setWidth 32

section
variable {s t : State}

theorem byteResponse_of_empty (h : s.head = s.tail) : s.byteResponse = s.cfg.emptyResponse :=
  if_pos h

theorem byteResponse_of_ne (h : s.head ≠ s.tail) :
    s.byteResponse = (s.storage.read s.tail).setWidth 32 := if_neg h

/-- A command that answers `EMPTY` on an empty buffer, and else reads the slot at `tail`. -/
theorem response_of_byteRead {u : State}
    (h : (if s.isEmpty then .next (s.respond s.cfg.emptyResponse)
      else memRead s.tail s fun v => .next (u.respond (v.setWidth 32))) = Host.Outcome.next t) :
    t.response = some s.byteResponse := by
  by_cases hempty : s.head = s.tail
  · rw [if_pos (isEmpty_iff.mpr hempty)] at h
    rw [byteResponse_of_empty hempty, ← Host.Outcome.next.inj h, State.respond_response]
  · rw [if_neg (mt isEmpty_iff.mp hempty)] at h
    obtain ⟨-, hread⟩ := memRead_eq_next.mp h
    rw [byteResponse_of_ne hempty, ← Host.Outcome.next.inj hread, State.respond_response]

theorem execRbPeek_response (h : execRbPeek s = .next t) : t.response = some s.byteResponse :=
  response_of_byteRead (s := s.beginCommand) (u := s.beginCommand) h

theorem execRbRead_response (h : execRbRead s = .next t) : t.response = some s.byteResponse :=
  response_of_byteRead (s := s.beginCommand)
    (u := s.beginCommand.setTail (nextIdx s.cfg s.tail)) h

end

/-- Bits 31 to 8 of a zero-extended byte are zero. -/
theorem extract_setWidth_byte (b : Byte) : (b.setWidth 32).extractLsb' 8 24 = 0#24 := by
  ext k hk
  simp

/-- Bit 31 tells the spec's `EMPTY` from every byte. -/
theorem byteResponse_bit31 {s : State} (he : s.cfg.emptyResponse = 0xFFFFFFFF#32) :
    s.byteResponse.getLsbD 31 = true ↔ s.head = s.tail := by
  by_cases hempty : s.head = s.tail
  · rw [byteResponse_of_empty hempty, he]
    exact iff_of_true (by decide) hempty
  · rw [byteResponse_of_ne hempty]
    exact iff_of_false (by simp) hempty

/-- Settles O22, on the common response of the two commands. -/
theorem emptyIsNoByte : Obligations.EmptyIsNoByte := by
  intro i s t hi h
  have hresponse : t.response = some s.byteResponse := by
    obtain rfl | rfl := hi
    · exact execRbPeek_response h
    · exact execRbRead_response h
  refine ⟨_, hresponse, byteResponse_of_empty, fun hne => ?_,
    fun he => ⟨fun hempty => ?_, byteResponse_bit31 he⟩⟩
  · rw [byteResponse_of_ne hne]
    exact ⟨⟨_, rfl⟩, extract_setWidth_byte _⟩
  · rw [byteResponse_of_empty hempty, he]
    decide

/-! ### The status word (R80) -/

section
variable {n : Nat} (x : BitVec n) (b : Bool)

theorem getLsbD_append_ofBool_zero : (x ++ BitVec.ofBool b).getLsbD 0 = b := by
  rw [BitVec.getLsbD_append, if_pos Nat.one_pos]
  simp

theorem getLsbD_append_ofBool_succ (k : Nat) :
    (x ++ BitVec.ofBool b).getLsbD (k + 1) = x.getLsbD k := by
  rw [BitVec.getLsbD_append, if_neg (by omega), Nat.add_sub_cancel]

end

section
variable (s : State)

theorem statusWord_claimed : s.statusWord.getLsbD 0 = s.claimValid :=
  getLsbD_append_ofBool_zero _ _

theorem statusWord_running : s.statusWord.getLsbD 1 = s.cmpIE :=
  (getLsbD_append_ofBool_succ _ _ 0).trans (getLsbD_append_ofBool_zero _ _)

theorem statusWord_finite : s.statusWord.getLsbD 2 = s.tcPositive :=
  (getLsbD_append_ofBool_succ _ _ 1).trans <|
    (getLsbD_append_ofBool_succ _ _ 0).trans (getLsbD_append_ofBool_zero _ _)

theorem statusWord_unbounded : s.statusWord.getLsbD 3 = s.tcNegative :=
  (getLsbD_append_ofBool_succ _ _ 2).trans <|
    (getLsbD_append_ofBool_succ _ _ 1).trans <|
      (getLsbD_append_ofBool_succ _ _ 0).trans (getLsbD_append_ofBool_zero _ _)

/-- The fields above the four flags. -/
theorem statusWord_above_flags {start : Nat} (len : Nat) (h : 4 ≤ start) :
    s.statusWord.extractLsb' start len =
      (0#16 ++ s.claimedPin ++ 0#4).extractLsb' (start - 4) len := by
  rw [State.statusWord, extract_above _ _ (by omega), extract_above _ _ (by omega),
    extract_above _ _ (by omega), extract_above _ _ (by omega)]
  rfl

theorem statusWord_low_zeros : s.statusWord.extractLsb' 4 4 = 0#4 :=
  (statusWord_above_flags s 4 (by decide)).trans (extract_low _ _)

theorem statusWord_pin : s.statusWord.extractLsb' 8 8 = s.claimedPin :=
  (statusWord_above_flags s 8 (by decide)).trans <|
    (extract_above _ _ (by decide)).trans (extract_low 0#16 s.claimedPin)

theorem statusWord_high_zeros : s.statusWord.extractLsb' 16 16 = 0#16 :=
  (statusWord_above_flags s 16 (by decide)).trans <|
    (extract_above _ _ (by decide)).trans (extract_high 0#16 s.claimedPin)

end

/-- Settles O37, field by field. -/
theorem statusWordFields : Obligations.StatusWordFields := by
  intro s
  refine ⟨s.statusWord, rfl, statusWord_claimed s, statusWord_running s, ?_, ?_,
    statusWord_low_zeros s, statusWord_pin s, statusWord_high_zeros s, fun hinv hfree => ?_⟩
  · rw [statusWord_finite, State.tcPositive, decide_eq_true_iff]
  · rw [statusWord_unbounded, State.tcNegative, decide_eq_true_iff]
  · rw [statusWord_pin, hinv.claimedPin_free hfree]

end Sys2Proof.Machine

/-! PROOFS. The ring-buffer commands (40_ring_buffer.md): the effect of each (R101 to R106), and
the laws of commands that follow one another directly (R107). -/

namespace Sys2Proof.Machine

/-! ### The effect of each command (R101 to R106) -/

/-- Settles O17: a full buffer counts the byte, and any other is written in slot `head`. -/
theorem storeWritesOrDrops : Obligations.StoreWritesOrDrops := by
  intro s c hh hwf
  refine ⟨fun hfull => ?_, fun hroom => ?_⟩
  · refine (execRbStore_of_full c hfull).trans ?_
    rw [countOverflow_eq]
    simp only [Bool.and_eq_true, bne_iff_ne]
    rfl
  · have hread (j : Nat) := Memory.read_write hwf s.head c j
    exact ⟨s.storage.write s.head c, execRbStore_of_room c hroom hh,
      (hread _).trans (if_pos rfl), fun j hj => (hread j).trans (if_neg hj),
      Memory.wf_write c hwf hh⟩

/-- A count that fits 32 bits is answered as it is (R78). -/
theorem availResponse_of_lt {n : Nat} (h : n < 2 ^ 32) : availResponse n = BitVec.ofNat 32 n :=
  if_pos h

/-- Settles O18: the response is the count of R26. -/
theorem availableResponds : Obligations.AvailableResponds := by
  intro s hh ht
  refine ⟨availResponse s.avail, rfl, fun hlt => ?_⟩
  rw [State.avail, availOf_eq_mod hh ht, availResponse_of_lt hlt, BitVec.toNat_ofNat,
    Nat.mod_eq_of_lt hlt]

/-- Settles O20, on an empty buffer and on one with a slot to read. -/
theorem peekResponds : Obligations.PeekResponds := by
  intro s ht
  split_ifs with hempty
  · exact execRbPeek_of_empty hempty
  · exact execRbPeek_of_ne hempty ht

/-- Settles O21, in the same two cases. -/
theorem readConsumes : Obligations.ReadConsumes := by
  intro s ht
  split_ifs with hempty
  · exact execRbRead_of_empty hempty
  · exact execRbRead_of_ne hempty ht

/-- Settles O23: RB_FLUSH has one case. -/
theorem flushDiscards : Obligations.FlushDiscards := fun _ => rfl

/-- Settles O24: the presence of the counter decides. -/
theorem overflowCountResponds : Obligations.OverflowCountResponds :=
  fun _ => ⟨fun hpresent => if_pos hpresent, fun habsent => if_neg (by simp [habsent])⟩

/-! ### Stores that follow one another directly (R107 (a), (b)) -/

section
variable {s t u : State}

/-- A list of stores is a window of receive events. -/
theorem execAll_rbStore (bytes : List Byte) (s : State) :
    execAll (bytes.map .rbStore) s = storeAll bytes s := by
  induction bytes generalizing s with
  | nil => rfl
  | cons c rest ih => exact congrArg (andThen (execRbStore c s)) (funext ih)

/-- Dropping from a queue's end what exceeds its room may be done before or after more joins it. -/
theorem take_take_append {α : Type} (n : Nat) (l l' : List α) :
    (l.take n ++ l').take n = (l ++ l').take n := by
  obtain hle | hle := Nat.le_total l.length n
  · rw [List.take_of_length_le hle]
  · rw [List.take_append_of_le_length (by rw [List.length_take]; omega),
      List.take_append_of_le_length hle, List.take_take, Nat.min_self]

/-- The buffer never holds more than `CAP - 1` bytes (R44 (b)). -/
theorem State.Inv.avail_le (h : s.Inv) : s.avail ≤ s.cfg.cap - 1 :=
  Nat.le_sub_one_of_lt (availOf_lt h.head_lt h.tail_lt)

/-- After stores the queue holds the first `CAP - 1` of the bytes it held and those stored. -/
theorem storeAll_buffered {bytes : List Byte} (h : s.Inv) (hu : storeAll bytes s = .next u) :
    u.buffered = (s.buffered ++ bytes).take (s.cfg.cap - 1) := by
  induction bytes generalizing s with
  | nil =>
    cases hu
    rw [List.append_nil, List.take_of_length_le (by rw [length_buffered]; exact h.avail_le)]
  | cons c rest ih =>
    obtain ⟨t, ht, hst⟩ := execRbStore_extends h c
    have hone : t.buffered = (s.buffered ++ [c]).take (s.cfg.cap - 1) := by
      have hle := h.avail_le
      rw [execRbStore_buffered h ht]
      split_ifs with hroom
      · rw [List.take_of_length_le (by simp; omega)]
      · rw [List.take_append_of_le_length (by rw [length_buffered]; omega),
          List.take_of_length_le (by rw [length_buffered]; exact hle)]
    rw [storeAll, ht, andThen_next] at hu
    rw [ih hst.inv hu, hst.cfg_eq, hone, take_take_append, List.append_assoc,
      List.singleton_append]

/-- A store counts its byte when it is dropped, as long as the counter does not saturate (R27). -/
theorem execRbStore_ovfCount (h : s.Inv) {c : Byte} (hpresent : s.cfg.hasOvfCounter = true)
    (ht : execRbStore c s = .next t)
    (hfits : s.ovfCount.toNat + (s.avail + 1 - (s.cfg.cap - 1)) < 2 ^ 32) :
    t.ovfCount.toNat = s.ovfCount.toNat + (s.avail + 1 - (s.cfg.cap - 1)) := by
  have hle := h.avail_le
  have hfull : nextIdx s.cfg s.head = s.tail ↔ s.avail = s.cfg.cap - 1 :=
    nextIdx_eq_tail_iff h.head_lt h.tail_lt
  by_cases hf : nextIdx s.cfg s.head = s.tail
  · have hdrop : s.avail + 1 - (s.cfg.cap - 1) = 1 := by rw [hfull.mp hf, Nat.add_sub_cancel_left]
    rw [hdrop] at hfits ⊢
    have hne : s.ovfCount ≠ 0xFFFFFFFF#32 := fun hmax => by
      rw [hmax] at hfits
      exact absurd hfits (by decide)
    have hstep : t.ovfCount = s.ovfCount + 1#32 := by
      rw [execRbStore_of_full c hf, countOverflow_eq] at ht
      cases ht
      simp [hpresent, hne]
    rw [hstep]
    exact BitVec.toNat_add_of_lt hfits
  · have hkeep : t.ovfCount = s.ovfCount := by
      rw [execRbStore_of_room c hf h.head_lt] at ht
      cases ht
      rfl
    have hne := mt hfull.mpr hf
    rw [hkeep]
    omega

/-- Stores count the bytes for which there is no room, as long as the counter does not saturate. -/
theorem storeAll_ovfCount {bytes : List Byte} (h : s.Inv) (hpresent : s.cfg.hasOvfCounter = true)
    (hu : storeAll bytes s = .next u)
    (hfits : s.ovfCount.toNat + (s.avail + bytes.length - (s.cfg.cap - 1)) < 2 ^ 32) :
    u.ovfCount.toNat = s.ovfCount.toNat + (s.avail + bytes.length - (s.cfg.cap - 1)) := by
  induction bytes generalizing s with
  | nil =>
    cases hu
    have hle := h.avail_le
    rw [List.length_nil]
    omega
  | cons c rest ih =>
    rw [List.length_cons] at hfits ⊢
    obtain ⟨t, ht, hst⟩ := execRbStore_extends h c
    have hcount := execRbStore_ovfCount h hpresent ht (by omega)
    have havail : t.avail = min (s.avail + 1) (s.cfg.cap - 1) := by
      have hone := storeAll_buffered (bytes := [c]) (u := t) h (by rw [storeAll, ht]; rfl)
      rw [← length_buffered, hone, List.length_take, List.length_append, length_buffered,
        List.length_singleton, Nat.min_comm]
    rw [storeAll, ht, andThen_next] at hu
    have hrest := ih hst.inv (by rw [hst.cfg_eq]; exact hpresent) hu
    rw [hst.cfg_eq, hcount, havail] at hrest
    rw [hrest (by omega)]
    omega

/-! ### The responses of commands that follow one another directly -/

theorem runResponses_cons {i : Instr} {is : List Instr} {rs : List Response}
    (h : exec i s = .next t) (hrest : runResponses is t = some (rs, u)) :
    runResponses (i :: is) s = some (t.response.toList ++ rs, u) := by
  rw [runResponses, h]
  simp only [hrest, Option.map_some]

theorem runResponses_append {is js : List Instr} {rs rs' : List Response}
    (h : runResponses is s = some (rs, t)) (h' : runResponses js t = some (rs', u)) :
    runResponses (is ++ js) s = some (rs ++ rs', u) := by
  induction is generalizing s rs with
  | nil =>
    cases h
    exact h'
  | cons i is ih =>
    cases hv : exec i s with
    | next v =>
      rw [runResponses, hv] at h
      obtain ⟨⟨_, _⟩, hrest, heq⟩ := Option.map_eq_some_iff.mp h
      cases heq
      rw [List.append_assoc]
      exact runResponses_cons hv (ih hrest)
    | fault f => rw [runResponses, hv] at h; cases h
    | refused x => rw [runResponses, hv] at h; cases h

/-- RB_STORE gives no response (R78). -/
theorem execRbStore_response (h : s.Inv) {c : Byte} (ht : execRbStore c s = .next t) :
    t.response = none := by
  by_cases hf : nextIdx s.cfg s.head = s.tail
  · rw [execRbStore_of_full c hf, countOverflow_eq] at ht
    cases ht
    rfl
  · rw [execRbStore_of_room c hf h.head_lt] at ht
    cases ht
    rfl

/-- Stores give no responses. -/
theorem runResponses_rbStore {bytes : List Byte} (h : s.Inv) (hu : storeAll bytes s = .next u) :
    runResponses (bytes.map .rbStore) s = some ([], u) := by
  induction bytes generalizing s with
  | nil =>
    cases hu
    rfl
  | cons c rest ih =>
    obtain ⟨t, ht, hst⟩ := execRbStore_extends h c
    rw [storeAll, ht, andThen_next] at hu
    have hrun := runResponses_cons (i := .rbStore c) ht (ih hst.inv hu)
    rwa [execRbStore_response h ht] at hrun

/-- RB_AVAILABLE answers how many bytes the queue holds. -/
theorem runResponses_rbAvailable (hfits : s.avail < 2 ^ 32) :
    runResponses [.rbAvailable] s = some ([BitVec.ofNat 32 s.avail],
      s.beginCommand.respond (BitVec.ofNat 32 s.avail)) := by
  rw [← availResponse_of_lt hfits]
  rfl

/-- RB_READ of a queue that holds a byte answers the oldest and leaves the others (R104). -/
theorem execRbRead_of_buffered_cons {b : Byte} {rest : List Byte} (h : s.Inv)
    (hb : s.buffered = b :: rest) :
    ∃ t, execRbRead s = .next t ∧ t.Inv ∧ t.buffered = rest ∧
      t.response = some (b.setWidth 32) := by
  have hne : s.head ≠ s.tail := fun hempty => by
    rw [buffered_of_empty hempty h.tail_lt] at hb
    cases hb
  have hnext := execRbRead_of_ne hne h.tail_lt
  obtain ⟨hqueue, hresponse⟩ := execRbRead_buffered h hnext
  rw [hb] at hqueue hresponse
  exact ⟨_, hnext, (h.beginCommand.setTail (nextIdx_lt h.cap_pos _)).respond _, hqueue, hresponse⟩

/-- As many reads as the queue holds bytes answer them in order. -/
theorem runResponses_rbRead {bytes : List Byte} (h : s.Inv) (hb : s.buffered = bytes) :
    ∃ t, runResponses (List.replicate bytes.length .rbRead) s =
      some (bytes.map (·.setWidth 32), t) := by
  induction bytes generalizing s with
  | nil => exact ⟨s, rfl⟩
  | cons b rest ih =>
    obtain ⟨t, ht, hinv, hqueue, hresponse⟩ := execRbRead_of_buffered_cons h hb
    obtain ⟨u, hu⟩ := ih hinv hqueue
    have hrun := runResponses_cons (i := .rbRead) ht hu
    rw [hresponse] at hrun
    exact ⟨u, hrun⟩

/-! ### The laws (R107) -/

theorem buffered_eq_nil (h : s.avail = 0) : s.buffered = [] := by
  rw [← List.length_eq_zero_iff, length_buffered, h]

/-- R107 (a): what is stored in an empty buffer with room for it is counted, and read in order. -/
theorem stores_then_reads (h : s.Inv) {bytes : List Byte} (hempty : s.avail = 0)
    (hroom : bytes.length ≤ s.cfg.cap - 1) (hfits : bytes.length < 2 ^ 32) :
    ∃ t, runResponses
      (bytes.map .rbStore ++ [.rbAvailable] ++ List.replicate bytes.length .rbRead) s =
        some (BitVec.ofNat 32 bytes.length :: bytes.map (·.setWidth 32), t) := by
  obtain ⟨u, hu, hsu⟩ := storeAll_extends bytes h
  have hqueue : u.buffered = bytes := by
    rw [storeAll_buffered h hu, buffered_eq_nil hempty, List.nil_append,
      List.take_of_length_le hroom]
  have havail : u.avail = bytes.length := by rw [← length_buffered, hqueue]
  have hcount := runResponses_rbAvailable (s := u) (havail.trans_lt hfits)
  rw [havail] at hcount
  obtain ⟨t, ht⟩ := runResponses_rbRead
    (s := u.beginCommand.respond (BitVec.ofNat 32 bytes.length)) (hsu.inv.beginCommand.respond _)
    hqueue
  exact ⟨t, runResponses_append (runResponses_append (runResponses_rbStore h hu) hcount) ht⟩

/-- R107 (b): stores beyond the room of an empty buffer are dropped and counted. -/
theorem stores_beyond_room (h : s.Inv) {bytes : List Byte} (hempty : s.avail = 0)
    (hmany : s.cfg.cap ≤ bytes.length) :
    ∃ t, execAll (bytes.map .rbStore) s = .next t ∧ t.buffered = bytes.take (s.cfg.cap - 1) ∧
      t.avail = s.cfg.cap - 1 ∧
      (s.cfg.hasOvfCounter = true →
        s.ovfCount.toNat + (bytes.length - (s.cfg.cap - 1)) < 2 ^ 32 →
        t.ovfCount.toNat = s.ovfCount.toNat + (bytes.length - (s.cfg.cap - 1))) := by
  obtain ⟨u, hu, -⟩ := storeAll_extends bytes h
  have hqueue : u.buffered = bytes.take (s.cfg.cap - 1) := by
    rw [storeAll_buffered h hu, buffered_eq_nil hempty, List.nil_append]
  refine ⟨u, (execAll_rbStore bytes s).trans hu, hqueue, ?_, fun hpresent hfits => ?_⟩
  · rw [← length_buffered, hqueue, List.length_take]
    omega
  · have hcount := storeAll_ovfCount h hpresent hu
    rw [hempty, Nat.zero_add] at hcount
    exact hcount hfits

/-- R107 (c): RB_FLUSH leaves nothing to count. -/
theorem flush_then_available (h : s.Inv) :
    ∃ t, runResponses [.rbFlush, .rbAvailable] s = some ([0#32, 0#32], t) := by
  have hzero : ((s.beginCommand.setTail s.head).respond 0#32).avail = 0 :=
    (availOf_eq_zero_iff h.head_lt h.head_lt).mpr rfl
  have hcount := runResponses_rbAvailable (hzero.trans_lt (by decide))
  rw [hzero] at hcount
  exact ⟨_, runResponses_cons (i := .rbFlush) rfl hcount⟩

/-- R107 (d): peeks do not consume, so that the read answers the same byte. -/
theorem peeks_then_read (h : s.Inv) (hne : s.head ≠ s.tail) :
    ∃ b : Byte, ∃ t, runResponses [.rbPeek, .rbPeek, .rbRead] s =
        some ([b.setWidth 32, b.setWidth 32, b.setWidth 32], t) ∧
      t.tail = (s.tail + 1) % s.cfg.cap := by
  have hpeek : exec .rbPeek s = _ := execRbPeek_of_ne hne h.tail_lt
  have hagain := exec_repeat_of_quiet (s := s)
    (t := s.beginCommand.respond ((s.storage.read s.tail).setWidth 32)) rfl hpeek
  have hread : exec .rbRead (s.beginCommand.respond ((s.storage.read s.tail).setWidth 32)) = _ :=
    (exec_of_quiet_eq .rbRead rfl).trans (execRbRead_of_ne hne h.tail_lt)
  exact ⟨s.storage.read s.tail, _,
    runResponses_cons hpeek (runResponses_cons hagain (runResponses_cons hread rfl)), rfl⟩

end

/-- Settles O25, law by law. -/
theorem bufferLaws : Obligations.BufferLaws := fun _ h =>
  ⟨fun _ => stores_then_reads h, fun _ => stores_beyond_room h, flush_then_available h,
    fun hne => peeks_then_read h (mt (availOf_eq_zero_iff h.head_lt h.tail_lt).mpr hne)⟩

end Sys2Proof.Machine

/-! PROOFS. Tone control (41_tone_control.md): the claim (R130, R138), what a start programs and when it
loses or is refused (R132, R133, R137), the countdown (R134), and the stop (R135). -/

namespace Sys2Proof.Machine

section
variable {s t : State} {pin : PinId}

/-! ### The claim (R130, R138) -/

theorem pinLoc_of_lt {cfg : Config} (h : pin.toNat < cfg.numPins) :
    ∃ loc, pinLoc cfg pin = some loc := ⟨_, List.getElem?_eq_getElem h⟩

theorem pinLoc_of_le {cfg : Config} (h : cfg.numPins ≤ pin.toNat) : pinLoc cfg pin = none :=
  List.getElem?_eq_none h

theorem canClaim_iff : s.canClaim pin = true ↔ s.claimValid = false ∨ s.claimedPin = pin := by
  simp [State.canClaim]

theorem canClaim_eq_false_iff :
    s.canClaim pin = false ↔ s.claimValid = true ∧ s.claimedPin ≠ pin := by
  simp [State.canClaim]

/-- Settles O30: the claim attempt in its two cases, and the pin that is not there. -/
theorem claimResponds : Obligations.ClaimResponds := by
  refine fun s pin => ⟨fun hp hc => ?_, fun hp hv hne => ?_,
    fun hp => execToneClaim_of_noPin (pinLoc_of_le hp)⟩
  · obtain ⟨loc, hl⟩ := pinLoc_of_lt hp
    exact execToneClaim_of_canClaim hl (canClaim_iff.mpr hc)
  · obtain ⟨loc, hl⟩ := pinLoc_of_lt hp
    exact execToneClaim_of_not_canClaim hl (canClaim_eq_false_iff.mpr ⟨hv, hne⟩)

/-- Settles O31: the two cases of the claim attempt, when a pin holds the claim. -/
theorem claimLaws : Obligations.ClaimLaws := by
  intro s a b ha hb hv hheld hab
  obtain ⟨hown, -⟩ := claimResponds s a
  obtain ⟨-, hother, -⟩ := claimResponds s b
  exact ⟨⟨_, hown ha (.inr hheld), rfl⟩, ⟨_, hother hb hv (hheld.trans_ne hab), rfl, rfl⟩⟩

/-! ### The start (R132, R133, R137) -/

/-- The registers that a start whose claim succeeds leaves, each from the operands (R132, R133). -/
theorem startedTone_eq (pin : PinId) (loc : PinLoc) (f : Frequency) (d : Duration) (s : State) :
    startedTone pin loc f d s = { s with
      claimValid := true, claimedPin := pin
      outPort := loc.port, outMask := loc.mask
      portDir := s.portDir.modify loc.port.toNat (· ||| loc.mask)
      fullPeriod := periodOf s.cfg f
      cmp := if (periodOf s.cfg f).toNat ≤ s.cfg.cmpMax then (periodOf s.cfg f).toNat
        else s.cfg.cmpMax
      extRem := if (periodOf s.cfg f).toNat ≤ s.cfg.cmpMax then 0#32 else periodOf s.cfg f
      tc := countdown s.cfg f d, tcnt := 0, cmpIE := true
      response := some 0#32, pinCalls := [.configOutput pin], refusal := none } := by
  have hcfg : (makeOutput pin loc (s.beginCommand.setClaim true pin)).cfg = s.cfg := rfl
  simp only [startedTone, programTone_eq, hcfg, fitsCmp_iff]
  rfl

/-- Settles O32. -/
theorem startPrograms : Obligations.StartPrograms := by
  rintro s pin f d loc p hl hc hf hport rfl
  exact (execToneStart_eq_next_of_canClaim (canClaim_iff.mpr hc)).mpr
    ⟨loc, hl, hf, hport, (startedTone_eq pin loc f d s).symm⟩

/-- Settles O33: the lost claim, the pin that is not there, and frequency 0. -/
theorem startLosesOrIsRefused : Obligations.StartLosesOrIsRefused := by
  refine fun s pin f d => ⟨fun hp hv hne => ?_,
    fun hp => execToneStart_of_noPin f d (pinLoc_of_le hp), fun hp hc => ?_⟩
  · obtain ⟨loc, hl⟩ := pinLoc_of_lt hp
    exact execToneStart_of_not_canClaim f d hl (canClaim_eq_false_iff.mpr ⟨hv, hne⟩)
  · obtain ⟨loc, hl⟩ := pinLoc_of_lt hp
    exact execToneStart_zeroFrequency d hl (canClaim_iff.mpr hc)

/-- What a start on the pin that may take the claim leaves of the previous tone: nothing (R137 (a)). -/
theorem execToneStart_forgets {f : Frequency} {d : Duration} (hc : s.canClaim pin = true)
    (h : execToneStart pin f d s = .next t) (p r : Period) (c k : Nat) (n : Countdown) :
    execToneStart pin f d { s with fullPeriod := p, extRem := r, cmp := c, tcnt := k, tc := n } =
      .next t := by
  obtain ⟨loc, hl, hf, hport, rfl⟩ := (execToneStart_eq_next_of_canClaim hc).mp h
  exact (execToneStart_eq_next_of_canClaim
    (s := { s with fullPeriod := p, extRem := r, cmp := c, tcnt := k, tc := n }) hc).mpr
    ⟨loc, hl, hf, hport, by rw [startedTone_eq, startedTone_eq]⟩

/-- A start that loses the claim changes no state and calls nothing (R137 (b)). -/
theorem execToneStart_lost {f : Frequency} {d : Duration} (hc : s.canClaim pin = false)
    (h : execToneStart pin f d s = .next t) : t.quiet = s.quiet ∧ t.pinCalls = [] := by
  obtain ⟨hyes, -⟩ | ⟨-, rfl⟩ := execToneStart_eq_next h
  · rw [hc] at hyes
    cases hyes
  · exact ⟨rfl, rfl⟩

/-- Settles O35: a start on the claimed pin, whose effect is written from its operands, and one on
another pin, which loses the claim. -/
theorem startOverridesOrLoses : Obligations.StartOverridesOrLoses := by
  intro s pin f d t hv h
  refine ⟨fun hown => ?_, fun hne => execToneStart_lost (canClaim_eq_false_iff.mpr ⟨hv, hne⟩) h⟩
  have hc : s.canClaim pin = true := canClaim_of_held hown
  have hforgets := execToneStart_forgets hc h
  obtain ⟨loc, -, -, -, rfl⟩ := (execToneStart_eq_next_of_canClaim hc).mp h
  rw [startedTone_eq] at hforgets ⊢
  exact ⟨rfl, rfl, rfl, (min_def _ _).symm, rfl, hforgets⟩

/-! ### The stop (R135) -/

/-- The stop of a pin that holds the claim releases it, and any other stop does not touch it. -/
theorem stoppedTone_of_held {loc : PinLoc} (hv : s.claimValid = true) (hp : s.claimedPin = pin) :
    stoppedTone pin loc s = { s with
      cmpIE := false, claimValid := false, claimedPin := 0#8
      portOut := s.portOut.modify loc.port.toNat (· &&& ~~~loc.mask)
      response := some 0#32, pinCalls := [.writeLow pin], refusal := none } := by
  have hrelease : releaseClaim pin s.beginCommand =
      (s.beginCommand.setCmpIE false).setClaim false 0#8 := if_pos (by simp [hv, hp])
  rw [stoppedTone, hrelease]
  rfl

theorem stoppedTone_of_not_held {loc : PinLoc} (h : s.claimValid = false ∨ s.claimedPin ≠ pin) :
    stoppedTone pin loc s = { s with
      portOut := s.portOut.modify loc.port.toNat (· &&& ~~~loc.mask)
      response := some 0#32, pinCalls := [.writeLow pin], refusal := none } := by
  have hrelease : releaseClaim pin s.beginCommand = s.beginCommand :=
    releaseClaim_of_not fun hv => h.resolve_left (by simpa using hv)
  rw [stoppedTone, hrelease]
  rfl

/-- Settles O36: the stop of the claimed pin, the stop of any other, and the pin that is not there. -/
theorem stopReleasesAndDrivesLow : Obligations.StopReleasesAndDrivesLow := by
  refine fun s pin => ⟨fun loc hl hport => ⟨fun hv hp => ?_, fun hother => ?_⟩,
    fun hp => execToneStop_of_noPin (pinLoc_of_le hp)⟩
  · exact execToneStop_eq_next.mpr ⟨loc, hl, hport, (stoppedTone_of_held hv hp).symm⟩
  · exact execToneStop_eq_next.mpr ⟨loc, hl, hport, (stoppedTone_of_not_held hother).symm⟩

end

/-! ### The countdown (R134) -/

/-- The number of toggles that the operands ask for fits 63 bits, whatever the divisor is. -/
theorem toggleCount_lt (f : Frequency) (d : Duration) (m : Nat) :
    2 * f.toNat * d.toNat / m < 2 ^ 63 :=
  calc 2 * f.toNat * d.toNat / m ≤ 2 * f.toNat * d.toNat := Nat.div_le_self _ _
    _ ≤ 2 * 2 ^ 16 * 2 ^ 32 := Nat.mul_le_mul (Nat.mul_le_mul_left 2 f.isLt.le) d.isLt.le
    _ < 2 ^ 63 := by norm_num

/-- At a divisor of 1000 the largest operands give the largest count. -/
theorem toggleCount_le (f : Frequency) (d : Duration) :
    2 * f.toNat * d.toNat / 1000 ≤ 562941363355 :=
  calc 2 * f.toNat * d.toNat / 1000 ≤ 2 * 65535 * 4294967295 / 1000 :=
        Nat.div_le_div_right (Nat.mul_le_mul (Nat.mul_le_mul_left 2 (Nat.le_of_lt_succ f.isLt))
          (Nat.le_of_lt_succ d.isLt))
    _ = 562941363355 := by norm_num

/-- Read as a signed number, the countdown of a duration is the exact quotient. -/
theorem countdown_toInt {cfg : Config} {f : Frequency} {d : Duration} (hd : d ≠ 0#32) :
    (countdown cfg f d).toInt = (2 * f.toNat * d.toNat / cfg.msPerS : Nat) := by
  have hfits := toggleCount_lt f d cfg.msPerS
  rw [countdown_of_ne hd, BitVec.toInt_ofNat']
  generalize 2 * f.toNat * d.toNat / cfg.msPerS = n at hfits
  exact Int.bmod_eq_of_le (by omega) (by omega)

/-- Settles O34. -/
theorem countdownExact : Obligations.CountdownExact := by
  refine ⟨fun cfg f d => ⟨?_, toggleCount_le f d⟩, fun cfg f hu => ?_, fun cfg hm => ?_⟩
  · split_ifs with hd
    · rw [hd, countdown_zero]
    · exact countdown_toInt hd
  · rw [countdown_zero, hu]
    decide
  · have value (f : Frequency) {d : Duration} (hd : d ≠ 0#32) :
        (countdown cfg f d).toInt = (2 * f.toNat * d.toNat / 1000 : Nat) :=
      hm ▸ countdown_toInt hd
    exact ⟨value _ (by decide), by norm_num,
      fun f d hd hlt => countdown_eq_zero hd (hlt.trans_eq hm.symm),
      value _ (by decide), value _ (by decide), value _ (by decide)⟩

end Sys2Proof.Machine

/-! PROOFS. The timer's commands as the tone generator sees them (R160 to R166), the levels after a stop
(41_tone_control.md R139), and the claim/release FSM (R140). -/

namespace Sys2Proof.Machine

section
variable {s t : State} {c : TimerCommand}

/-! ### What a timer command does -/

theorem firesToggle_iff : s.firesToggle c = true ↔
    s.cmpIE = true ∧ s.matchesOn c = true ∧ s.atThreshold = true := by
  simp [State.firesToggle, and_assoc]

theorem firesBookkeeping_iff : s.firesBookkeeping c = true ↔
    s.cmpIE = true ∧ s.matchesOn c = true ∧ s.atThreshold = false := by
  simp [State.firesBookkeeping, and_assoc]

/-- A timer command counts, or makes a compare-match (R160, R167). -/
theorem exec_timer_matches (h : exec c.instr s = .next t) :
    (s.matchesOn c = true ∧ compareMatch s.beginCommand = .next t) ∨
      (s.matchesOn c = false ∧ ∃ n, t = s.beginCommand.setTcnt n) := by
  cases c with
  | tick =>
    obtain ⟨hm, ht⟩ | ⟨hm, ht⟩ := tick_eq_next (s := s.beginCommand) h
    · exact .inl ⟨beq_iff_eq.mpr hm, ht⟩
    · exact .inr ⟨beq_eq_false_iff_ne.mpr hm, _, ht⟩
  | compare => exact .inl ⟨rfl, h⟩

/-- What a timer command that completes did: a toggle firing, a bookkeeping firing, or a move of the
counter alone (R160 to R167). -/
theorem exec_timer_eq_next (h : exec c.instr s = .next t) :
    (s.firesToggle c = true ∧ endCheck (reload (s.beginCommand.setTcnt 0)) = .next t) ∨
    (s.firesBookkeeping c = true ∧ t = bookkeepingFiring (s.beginCommand.setTcnt 0)) ∨
    ((s.cmpIE = false ∨ s.matchesOn c = false) ∧ ∃ n, t = s.beginCommand.setTcnt n) := by
  obtain ⟨hm, hmatch⟩ | ⟨hm, ht⟩ := exec_timer_matches h
  · obtain ⟨hie, hhandler⟩ | ⟨hie, rfl⟩ := compareMatch_eq_next hmatch
    · obtain ⟨hthr, hend⟩ | ⟨hthr, rfl⟩ := handler_eq_next hhandler
      · exact .inl ⟨firesToggle_iff.mpr ⟨hie, hm, hthr⟩, hend⟩
      · exact .inr (.inl ⟨firesBookkeeping_iff.mpr ⟨hie, hm, hthr⟩, rfl⟩)
    · exact .inr (.inr ⟨.inl hie, 0, rfl⟩)
  · exact .inr (.inr ⟨.inr hm, ht⟩)

/-- While the interrupt is disabled a timer command moves the counter alone (R162). -/
theorem exec_timer_of_disabled (hie : s.cmpIE = false) (h : exec c.instr s = .next t) :
    ∃ n, t = s.beginCommand.setTcnt n := by
  obtain ⟨hfires, -⟩ | ⟨hfires, -⟩ | ⟨-, hmoved⟩ := exec_timer_eq_next h
  · simp [State.firesToggle, hie] at hfires
  · simp [State.firesBookkeeping, hie] at hfires
  · exact hmoved

/-- A timer command that is no toggle firing makes no pin-layer call, and keeps the interrupt enable and
the countdown. -/
theorem exec_timer_of_not_firesToggle (hno : s.firesToggle c = false)
    (h : exec c.instr s = .next t) : t.pinCalls = [] ∧ t.cmpIE = s.cmpIE ∧ t.tc = s.tc := by
  obtain ⟨hfires, -⟩ | ⟨-, rfl⟩ | ⟨-, n, rfl⟩ := exec_timer_eq_next h
  · rw [hno] at hfires
    cases hfires
  · rw [bookkeepingFiring_eq]
    exact ⟨rfl, rfl, rfl⟩
  · exact ⟨rfl, rfl, rfl⟩

/-- A timer command never touches the claim (R42). -/
theorem exec_timer_claim (h : exec c.instr s = .next t) :
    t.claimValid = s.claimValid ∧ t.claimedPin = s.claimedPin := by
  cases c <;> rw [exec_frame h] <;> exact ⟨rfl, rfl⟩

theorem endCheck_of_firesToggle (hf : s.firesToggle c = true) (h : exec c.instr s = .next t) :
    endCheck (reload (s.beginCommand.setTcnt 0)) = .next t := by
  obtain ⟨hie, hm, hthr⟩ := firesToggle_iff.mp hf
  obtain ⟨-, hend⟩ | ⟨hb, -⟩ | ⟨hno, -⟩ := exec_timer_eq_next h
  · exact hend
  · simp [State.firesBookkeeping, hthr] at hb
  · simp [hie, hm] at hno

/-- A toggle firing on the count 0 turns the interrupt off without a toggle (R166). -/
theorem firesToggle_of_zero (hf : s.firesToggle c = true) (h : exec c.instr s = .next t)
    (h0 : s.tc = 0#64) : t.toggles = 0 ∧ t.cmpIE = false := by
  have hend := endCheck_of_firesToggle hf h
  rw [reload_eq, endCheck_of_zero (by simpa using h0)] at hend
  cases hend
  exact ⟨rfl, rfl⟩

/-- A toggle firing on any other count toggles once, takes one from a positive count, and turns the
interrupt off with the last toggle when the end check comes after the decrement (R166). -/
theorem firesToggle_of_ne (hf : s.firesToggle c = true) (h : exec c.instr s = .next t)
    (h0 : s.tc ≠ 0#64) :
    t.toggles = 1 ∧ t.tc = (if s.tcPositive then s.tc - 1#64 else s.tc) ∧
      t.cmpIE = (s.cmpIE &&
        !(decide (s.cfg.endCheck = .afterDecrement) && decide (s.tc = 1#64))) := by
  have hend := endCheck_of_firesToggle hf h
  rw [reload_eq] at hend
  rw [endCheck_of_ne (by simpa using h0) (endCheck_port_lt hend (by simpa using h0))] at hend
  cases hend
  exact ⟨rfl, rfl, rfl⟩

end

/-! ### What a stop leaves of the claim and of the level (R135) -/

section
variable {s t : State} {pin : PinId}

theorem execToneStop_of_held (hv : s.claimValid = true) (hp : s.claimedPin = pin)
    (h : execToneStop pin s = .next t) : t.claimValid = false ∧ t.cmpIE = false := by
  obtain ⟨loc, -, -, rfl⟩ := execToneStop_eq_next.mp h
  rw [stoppedTone_of_held hv hp]
  exact ⟨rfl, rfl⟩

theorem execToneStop_of_not_held (hno : s.claimValid = false ∨ s.claimedPin ≠ pin)
    (h : execToneStop pin s = .next t) :
    t.claimValid = s.claimValid ∧ t.claimedPin = s.claimedPin ∧ t.cmpIE = s.cmpIE ∧
      t.tc = s.tc := by
  obtain ⟨loc, -, -, rfl⟩ := execToneStop_eq_next.mp h
  rw [stoppedTone_of_not_held hno]
  exact ⟨rfl, rfl, rfl, rfl⟩

theorem execToneStop_portOut {loc : PinLoc} (hl : pinLoc s.cfg pin = some loc)
    (h : execToneStop pin s = .next t) :
    loc.port.toNat < s.portOut.length ∧
      t.portOut = s.portOut.modify loc.port.toNat (· &&& ~~~loc.mask) := by
  obtain ⟨loc', hl', hport, rfl⟩ := execToneStop_eq_next.mp h
  obtain rfl : loc' = loc := Option.some.inj (hl'.symm.trans hl)
  exact ⟨hport, rfl⟩

/-- A stop never enables the interrupt. -/
theorem execToneStop_cmpIE (hie : s.cmpIE = false) (h : execToneStop pin s = .next t) :
    t.cmpIE = false := by
  by_cases hheld : s.claimValid = true ∧ s.claimedPin = pin
  · exact (execToneStop_of_held hheld.1 hheld.2 h).2
  · rw [not_and_or, Bool.not_eq_true] at hheld
    obtain ⟨-, -, hkept, -⟩ := execToneStop_of_not_held hheld h
    exact hkept.trans hie

/-- A stop leaves the pin low, whatever its level was and whoever holds the claim. -/
theorem execToneStop_pinLevel {loc : PinLoc} (hl : pinLoc s.cfg pin = some loc)
    (h : execToneStop pin s = .next t) : t.pinLevel loc = some false := by
  obtain ⟨hport, hout⟩ := execToneStop_portOut hl h
  have hclear (b : Byte) : b &&& ~~~loc.mask &&& loc.mask = 0#8 := by
    rw [BitVec.and_assoc, BitVec.and_comm (~~~loc.mask), BitVec.and_not_self]
    exact BitVec.and_zero
  simp [State.pinLevel, hout, List.getElem?_eq_getElem hport, hclear]

end

/-! ### The levels after a stop (R139) -/

section
variable {s t : State}

/-- While the interrupt is disabled only a start whose claim succeeds enables it. -/
theorem start_of_enabled {i : Instr} (hie : s.cmpIE = false) (h : exec i s = .next t)
    (ht : t.cmpIE = true) : ∃ pin f d, i = .toneStart pin f d ∧ s.canClaim pin = true := by
  have timer (c : TimerCommand) (hc : exec c.instr s = .next t) : t.cmpIE = false := by
    obtain ⟨n, rfl⟩ := exec_timer_of_disabled hie hc
    exact hie
  obtain ⟨-, -, -, -, -, howners, -⟩ := fieldOwnership i s t h
  obtain ⟨pin, f, d, rfl⟩ | ⟨pin, rfl⟩ | rfl | rfl := howners (by simp [hie, ht])
  · obtain ⟨hc, -⟩ | ⟨-, rfl⟩ := execToneStart_eq_next h
    · exact ⟨pin, f, d, rfl, hc⟩
    · exact absurd (hie.symm.trans ht) Bool.false_ne_true
  · exact absurd ((execToneStop_cmpIE hie h).symm.trans ht) Bool.false_ne_true
  · exact absurd ((timer .tick h).symm.trans ht) Bool.false_ne_true
  · exact absurd ((timer .compare h).symm.trans ht) Bool.false_ne_true

/-- While the interrupt is disabled only a stop changes an output level, of its own pin. -/
theorem portOut_of_disabled {i : Instr} (hie : s.cmpIE = false) (h : exec i s = .next t) :
    t.portOut = s.portOut ∨ ∃ pin loc, i = .toneStop pin ∧ pinLoc s.cfg pin = some loc ∧
      t.portOut = s.portOut.modify loc.port.toNat (· &&& ~~~loc.mask) := by
  have timer (c : TimerCommand) (hc : exec c.instr s = .next t) : t.portOut = s.portOut := by
    obtain ⟨n, rfl⟩ := exec_timer_of_disabled hie hc
    rfl
  by_cases hsame : t.portOut = s.portOut
  · exact .inl hsame
  · obtain ⟨-, -, -, -, -, -, howners, -⟩ := fieldOwnership i s t h
    obtain ⟨pin, rfl⟩ | rfl | rfl := howners hsame
    · obtain ⟨loc, hl, -, -⟩ := execToneStop_eq_next.mp h
      exact .inr ⟨pin, loc, rfl, hl, (execToneStop_portOut hl h).2⟩
    · exact .inl (timer .tick h)
    · exact .inl (timer .compare h)

/-- No event that waits is a TONE_START or a TONE_STOP. -/
def State.NoToneWaits (s : State) : Prop :=
  ∀ port w i, .command port w ∈ s.inbox → decode s.cfg.hasOvfCounter port w = .ok i →
    (∀ pin f d, i ≠ .toneStart pin f d) ∧ ∀ pin, i ≠ .toneStop pin

/-- What waits later is part of what waits now. -/
theorem State.NoToneWaits.of_subset (h : s.NoToneWaits) (hcfg : t.cfg = s.cfg)
    (hinbox : t.inbox ⊆ s.inbox) : t.NoToneWaits := by
  intro port w i hw hd
  rw [hcfg] at hd
  exact h port w i (hinbox hw) hd

/-- While the interrupt is disabled a command that is no start and no stop keeps it disabled and every
output level as it is. -/
theorem exec_keepsSilence {i : Instr} (hie : s.cmpIE = false)
    (hstart : ∀ pin f d, i ≠ .toneStart pin f d) (hstop : ∀ pin, i ≠ .toneStop pin)
    (h : exec i s = .next t) : t.portOut = s.portOut ∧ t.cmpIE = false := by
  refine ⟨(portOut_of_disabled hie h).resolve_right ?_, Bool.eq_false_iff.mpr fun ht => ?_⟩
  · rintro ⟨pin, -, hi, -⟩
    exact hstop pin hi
  · obtain ⟨pin, f, d, hi, -⟩ := start_of_enabled hie h ht
    exact hstart pin f d hi

/-- So does a word on a port, decoded or refused, and it takes nothing but itself from the inbox. -/
theorem runCommand_keepsSilence {port : Port} {w : CommandWord} (hie : s.cmpIE = false)
    (hno : ∀ i, decode s.cfg.hasOvfCounter port w = .ok i →
      (∀ pin f d, i ≠ .toneStart pin f d) ∧ ∀ pin, i ≠ .toneStop pin)
    (h : runCommand port w s = .next t) :
    t.portOut = s.portOut ∧ t.cmpIE = false ∧ t.cfg = s.cfg ∧ t.inbox = s.inbox := by
  unfold runCommand at h
  cases hd : decode s.cfg.hasOvfCounter port w with
  | error reason =>
    rw [hd] at h
    cases h
    exact ⟨rfl, hie, rfl, rfl⟩
  | ok i =>
    rw [hd] at h
    obtain hnext | ⟨reason, -, rfl⟩ := settle_eq_next h
    · obtain ⟨hstart, hstop⟩ := hno i hd
      obtain ⟨hout, hie'⟩ := exec_keepsSilence hie hstart hstop hnext
      obtain ⟨-, -, -, -, -, -, -, hcfg, -, hinbox⟩ := fieldOwnership i s t hnext
      exact ⟨hout, hie', hcfg, hinbox⟩
    · exact ⟨rfl, hie, rfl, rfl⟩

/-- So does a step; a reset disables the interrupt and does not touch the pin layer (R230). -/
theorem step_keepsSilence (hie : s.cmpIE = false) (hno : s.NoToneWaits) (h : step s = .next t) :
    t.portOut = s.portOut ∧ t.cmpIE = false ∧ t.NoToneWaits := by
  have hc : configOk s.cfg = true := by
    by_contra hc
    simp [step, hc] at h
  cases hi : s.inbox with
  | nil =>
    rw [step_idle hc hi] at h
    cases h
    exact ⟨rfl, hie, hno⟩
  | cons e rest =>
    rw [step_event hc hi] at h
    have hrest : rest ⊆ s.inbox := hi ▸ List.subset_cons_self e rest
    cases e with
    | command port w =>
      have hw : .command port w ∈ s.inbox := hi ▸ List.mem_cons_self
      obtain ⟨hout, hie', hcfg, hinbox⟩ :=
        runCommand_keepsSilence (s := s.setInbox rest) hie (fun i => hno port w i hw) h
      exact ⟨hout, hie', hno.of_subset hcfg (hinbox ▸ hrest)⟩
    | reset contents =>
      cases h
      exact ⟨rfl, rfl, hno.of_subset rfl hrest⟩

/-- A run that completes a step more completes that step. -/
theorem run_succ_eq_next {n : Nat} (h : Host.Core.run core (n + 1) s = .next t) :
    ∃ u, step s = .next u ∧ Host.Core.run core n u = .next t := by
  simp only [Host.Core.run] at h
  split at h
  next u hu => exact ⟨u, hu, h⟩
  next => cases h
  next => cases h

/-- So does a run of any length. -/
theorem run_keepsSilence (n : Nat) (hie : s.cmpIE = false) (hno : s.NoToneWaits)
    (h : Host.Core.run core n s = .next t) : t.portOut = s.portOut ∧ t.cmpIE = false := by
  induction n generalizing s with
  | zero =>
    cases h
    exact ⟨rfl, hie⟩
  | succ n ih =>
    obtain ⟨u, hu, hrun⟩ := run_succ_eq_next h
    obtain ⟨hout, hie', hno'⟩ := step_keepsSilence hie hno hu
    obtain ⟨hout', hie''⟩ := ih hie' hno' hrun
    exact ⟨hout'.trans hout, hie''⟩

end

/-- Settles O38: the stop, the commands while the interrupt is disabled, and the run, by induction on
its length. -/
theorem noToggleAfterStop : Obligations.NoToggleAfterStop :=
  ⟨fun _ _ hv h => (execToneStop_of_held hv rfl h).2,
    fun _ _ _ hie h => ⟨start_of_enabled hie h, portOut_of_disabled hie h⟩,
    fun _ _ n hie hno h => run_keepsSilence n hie hno h⟩

end Sys2Proof.Machine

/-! PROOFS. The claim/release FSM (41_tone_control.md R140): the state it is in, and the transition of
each command. -/

namespace Sys2Proof.Machine

/-! ### The state of the FSM -/

section
variable {s t : State} {x : ToneFsm}

theorem running_of_pos {p : PinId} {tc : Countdown} (h : 0 < tc.toInt) :
    ToneFsm.running p tc = .runFinite p := if_pos h

theorem running_of_neg {p : PinId} {tc : Countdown} (h : tc.toInt < 0) :
    ToneFsm.running p tc = .runUnbounded p := by
  rw [ToneFsm.running, if_neg h.not_gt, if_pos h]

theorem running_zero (p : PinId) : ToneFsm.running p 0#64 = .runLast p := rfl

theorem running_ne_free (p : PinId) (tc : Countdown) : ToneFsm.running p tc ≠ .free := by
  unfold ToneFsm.running
  split_ifs <;> nofun

theorem running_ne_held (p q : PinId) (tc : Countdown) : ToneFsm.running p tc ≠ .held q := by
  unfold ToneFsm.running
  split_ifs <;> nofun

theorem toneFsm_of_free (hv : s.claimValid = false) (hie : s.cmpIE = false) :
    s.toneFsm = some .free := by
  simp [State.toneFsm, hv, hie]

theorem toneFsm_of_held (hv : s.claimValid = true) (hie : s.cmpIE = false) :
    s.toneFsm = some (.held s.claimedPin) := by
  simp [State.toneFsm, hv, hie]

theorem toneFsm_of_running (hv : s.claimValid = true) (hie : s.cmpIE = true) :
    s.toneFsm = some (.running s.claimedPin s.tc) := by
  simp [State.toneFsm, hv, hie]

/-- The FSM state is a function of the claim, the interrupt enable and the countdown. -/
theorem toneFsm_congr (hv : t.claimValid = s.claimValid) (hp : t.claimedPin = s.claimedPin)
    (hie : t.cmpIE = s.cmpIE) (htc : t.tc = s.tc) : t.toneFsm = s.toneFsm := by
  rw [State.toneFsm, State.toneFsm, hv, hp, hie, htc]

/-- Under the invariant the FSM is in the state that R140 names for the claim and the interrupt enable: a
running tone without a claim does not occur (R44 (d)). -/
theorem State.Inv.toneFsm_cases (h : s.Inv) :
    (s.claimValid = false ∧ s.cmpIE = false ∧ s.toneFsm = some .free) ∨
    (s.claimValid = true ∧ s.cmpIE = false ∧ s.toneFsm = some (.held s.claimedPin)) ∨
    (s.claimValid = true ∧ s.cmpIE = true ∧
      s.toneFsm = some (.running s.claimedPin s.tc)) := by
  cases hie : s.cmpIE with
  | true =>
    have hv := h.running_claimed hie
    exact .inr (.inr ⟨hv, rfl, toneFsm_of_running hv hie⟩)
  | false =>
    cases hv : s.claimValid with
    | true => exact .inr (.inl ⟨rfl, rfl, toneFsm_of_held hv hie⟩)
    | false => exact .inl ⟨rfl, rfl, toneFsm_of_free hv hie⟩

theorem State.Inv.toneFsm_defined (h : s.Inv) : ∃ x, s.toneFsm = some x := by
  obtain ⟨-, -, hx⟩ | ⟨-, -, hx⟩ | ⟨-, -, hx⟩ := h.toneFsm_cases <;> exact ⟨_, hx⟩

/-- FREE is the state in which no pin holds the claim. -/
theorem State.Inv.fsm_free_iff (h : s.Inv) (hx : s.toneFsm = some x) :
    x = .free ↔ s.claimValid = false := by
  obtain ⟨hv, -, hy⟩ | ⟨hv, -, hy⟩ | ⟨hv, -, hy⟩ := h.toneFsm_cases <;>
    obtain rfl := Option.some.inj (hx.symm.trans hy) <;>
    simp [hv, running_ne_free]

/-- No tone runs in FREE and HELD. -/
theorem State.Inv.disabled_of_fsm_idle (h : s.Inv) (hx : s.toneFsm = some x)
    (hidle : x = .free ∨ x = .held s.claimedPin) : s.cmpIE = false := by
  obtain ⟨-, hie, -⟩ | ⟨-, hie, -⟩ | ⟨-, -, hy⟩ := h.toneFsm_cases
  · exact hie
  · exact hie
  · obtain rfl := Option.some.inj (hx.symm.trans hy)
    exact absurd hidle (not_or.mpr ⟨running_ne_free _ _, running_ne_held _ _ _⟩)

/-! ### Claim, start and stop -/

/-- What a TONE_CLAIM that completes did (R131). -/
theorem execToneClaim_eq_next {pin : PinId} (h : execToneClaim pin s = .next t) :
    (s.canClaim pin = true ∧ t = (s.beginCommand.setClaim true pin).respond 1#32) ∨
      (s.canClaim pin = false ∧ t = s.beginCommand.respond 0#32) := by
  cases hl : pinLoc s.cfg pin with
  | none => rw [execToneClaim_of_noPin hl] at h; cases h
  | some loc =>
    cases hc : s.canClaim pin with
    | true =>
      rw [execToneClaim_of_canClaim hl hc] at h
      exact .inl ⟨rfl, (Host.Outcome.next.inj h).symm⟩
    | false =>
      rw [execToneClaim_of_not_canClaim hl hc] at h
      exact .inr ⟨rfl, (Host.Outcome.next.inj h).symm⟩

/-- A claim in FREE is granted and leads to HELD. -/
theorem toneFsm_claim_free {p : PinId} (hv : s.claimValid = false) (hie : s.cmpIE = false)
    (ht : execToneClaim p s = .next t) :
    t.toneFsm = some (.held p) ∧ t.response = some 1#32 := by
  obtain ⟨-, rfl⟩ | ⟨hno, -⟩ := execToneClaim_eq_next ht
  · exact ⟨toneFsm_of_held rfl hie, rfl⟩
  · obtain ⟨hv', -⟩ := canClaim_eq_false_iff.mp hno
    exact absurd (hv.symm.trans hv') Bool.false_ne_true

/-- A claim in any other state keeps it, and is granted to the claimed pin alone. -/
theorem toneFsm_claim_claimed {p : PinId} (hv : s.claimValid = true)
    (ht : execToneClaim p s = .next t) :
    t.toneFsm = s.toneFsm ∧ t.response = some (if p = s.claimedPin then 1#32 else 0#32) := by
  obtain ⟨hc, rfl⟩ | ⟨hno, rfl⟩ := execToneClaim_eq_next ht
  · obtain hfree | rfl := canClaim_iff.mp hc
    · exact absurd (hfree.symm.trans hv) Bool.false_ne_true
    · exact ⟨toneFsm_congr hv.symm rfl rfl rfl, by rw [if_pos rfl]; rfl⟩
  · obtain ⟨-, hne⟩ := canClaim_eq_false_iff.mp hno
    exact ⟨rfl, by rw [if_neg hne.symm]; rfl⟩

/-- A start that may take the claim leads to the running state of its countdown, at a frequency that is
not 0. -/
theorem toneFsm_start {p : PinId} {f : Frequency} {d : Duration} (hc : s.canClaim p = true)
    (ht : execToneStart p f d s = .next t) :
    f ≠ 0#16 ∧ t.toneFsm = some (.running p (countdown s.cfg f d)) := by
  obtain ⟨loc, -, hf, -, rfl⟩ := (execToneStart_eq_next_of_canClaim hc).mp ht
  rw [startedTone_eq]
  exact ⟨hf, toneFsm_of_running rfl rfl⟩

/-- A stop of the claimed pin leads to FREE. -/
theorem toneFsm_stop_held {p : PinId} (hv : s.claimValid = true) (hp : s.claimedPin = p)
    (ht : execToneStop p s = .next t) : t.toneFsm = some .free := by
  obtain ⟨hv', hie'⟩ := execToneStop_of_held hv hp ht
  exact toneFsm_of_free hv' hie'

/-- Any other stop keeps the state. -/
theorem toneFsm_stop_not_held {p : PinId} (hno : s.claimValid = false ∨ s.claimedPin ≠ p)
    (ht : execToneStop p s = .next t) : t.toneFsm = s.toneFsm := by
  obtain ⟨hv, hp, hie, htc⟩ := execToneStop_of_not_held hno ht
  exact toneFsm_congr hv hp hie htc

/-! ### The timer -/

/-- A count above 1 stays above 0 when it loses 1. -/
theorem toInt_sub_one_pos {n : Countdown} (hpos : 0 < n.toInt) (h1 : n ≠ 1#64) :
    0 < (n - 1#64).toInt := by
  have hne : (n - 1#64).toInt ≠ 0 := fun h0 => h1 (by
    have hzero : n - 1#64 = 0#64 := BitVec.eq_of_toInt_eq h0
    bv_omega)
  have := toInt_sub_one_nonneg hpos
  omega

variable {c : TimerCommand}

/-- A timer command that is no toggle firing keeps the state and toggles nothing. -/
theorem toneFsm_timer_quiet (hno : s.firesToggle c = false) (ht : exec c.instr s = .next t) :
    t.toneFsm = s.toneFsm ∧ t.toggles = 0 := by
  obtain ⟨hv, hp⟩ := exec_timer_claim ht
  obtain ⟨hcalls, hie, htc⟩ := exec_timer_of_not_firesToggle hno ht
  exact ⟨toneFsm_congr hv hp hie htc, by simp [State.toggles, hcalls]⟩

/-- A toggle firing that leaves the interrupt enabled leads to the running state of the new count. -/
theorem toneFsm_firing_running (hv : s.claimValid = true) (ht : exec c.instr s = .next t)
    (hie : t.cmpIE = true) : t.toneFsm = some (.running s.claimedPin t.tc) := by
  obtain ⟨hv', hp⟩ := exec_timer_claim ht
  rw [toneFsm_of_running (hv'.trans hv) hie, hp]

/-- A toggle firing that ends the tone leads to HELD. -/
theorem toneFsm_firing_ended (hv : s.claimValid = true) (ht : exec c.instr s = .next t)
    (hie : t.cmpIE = false) : t.toneFsm = some (.held s.claimedPin) := by
  obtain ⟨hv', hp⟩ := exec_timer_claim ht
  rw [toneFsm_of_held (hv'.trans hv) hie, hp]

/-- Where the last toggle of a finite count leads, in the two readings of the end check (R166). -/
def ToneFsm.afterLast (e : EndCheck) (p : PinId) : ToneFsm :=
  match e with
  | .afterDecrement => .held p
  | .elseBranch => .runLast p

/-- A toggle firing on a positive count toggles and counts down (R140). -/
theorem toneFsm_firing_finite (hv : s.claimValid = true) (hpos : 0 < s.tc.toInt)
    (hf : s.firesToggle c = true) (ht : exec c.instr s = .next t) :
    t.toggles = 1 ∧ t.tc = s.tc - 1#64 ∧ t.toneFsm = some
      (if s.tc = 1#64 then .afterLast s.cfg.endCheck s.claimedPin else .runFinite s.claimedPin) := by
  obtain ⟨hie, -⟩ := firesToggle_iff.mp hf
  have h0 : s.tc ≠ 0#64 := fun h0 => hpos.ne' (by rw [h0]; rfl)
  obtain ⟨htoggles, htc, hie'⟩ := firesToggle_of_ne hf ht h0
  have hdec : t.tc = s.tc - 1#64 := htc.trans (if_pos (decide_eq_true hpos))
  refine ⟨htoggles, hdec, ?_⟩
  split_ifs with h1
  · cases he : s.cfg.endCheck with
    | afterDecrement => exact toneFsm_firing_ended hv ht (by simp [hie', he, h1])
    | elseBranch =>
      rw [toneFsm_firing_running hv ht (by simp [hie', he, hie]), hdec, h1]
      exact congrArg some (running_zero _)
  · rw [toneFsm_firing_running hv ht (by simp [hie', h1, hie]), hdec,
      running_of_pos (toInt_sub_one_pos hpos h1)]

/-- A toggle firing on the count 0 ends the tone without a toggle. -/
theorem toneFsm_firing_last (hv : s.claimValid = true) (h0 : s.tc = 0#64)
    (hf : s.firesToggle c = true) (ht : exec c.instr s = .next t) :
    t.toggles = 0 ∧ t.toneFsm = some (.held s.claimedPin) := by
  obtain ⟨htoggles, hie⟩ := firesToggle_of_zero hf ht h0
  exact ⟨htoggles, toneFsm_firing_ended hv ht hie⟩

/-- A toggle firing on a negative count toggles and runs on. -/
theorem toneFsm_firing_unbounded (hv : s.claimValid = true) (hneg : s.tc.toInt < 0)
    (hf : s.firesToggle c = true) (ht : exec c.instr s = .next t) :
    t.toggles = 1 ∧ t.toneFsm = some (.runUnbounded s.claimedPin) := by
  obtain ⟨hie, -⟩ := firesToggle_iff.mp hf
  have h0 : s.tc ≠ 0#64 := fun h0 => hneg.ne (by rw [h0]; rfl)
  have h1 : s.tc ≠ 1#64 := fun h1 => absurd hneg (by rw [h1]; decide)
  obtain ⟨htoggles, htc, hie'⟩ := firesToggle_of_ne hf ht h0
  have hkept : t.tc = s.tc := htc.trans (if_neg (by simpa [State.tcPositive] using hneg.le))
  rw [toneFsm_firing_running hv ht (by simp [hie', h1, hie]), hkept, running_of_neg hneg]
  exact ⟨htoggles, rfl⟩

/-- A command that owns none of the registers of the FSM keeps its state. -/
theorem toneFsm_other {i : Instr}
    (hi : (∃ c, i = .rbStore c) ∨ i = .rbAvailable ∨ i = .rbPeek ∨ i = .rbRead ∨ i = .rbFlush ∨
      i = .rbOvfcount ∨ i = .toneStatus) (ht : exec i s = .next t) : t.toneFsm = s.toneFsm := by
  have hframe := exec_frame ht
  obtain ⟨c, rfl⟩ | rfl | rfl | rfl | rfl | rfl | rfl := hi <;> rw [hframe] <;> rfl

end

/-- Settles O39, row by row of the transition table. -/
theorem toneFsmTransitions : Obligations.ToneFsmTransitions := by
  intro s h
  obtain ⟨x, hx⟩ := h.toneFsm_defined
  have hfree : x = .free ↔ s.claimValid = false := h.fsm_free_iff hx
  have hclaimed : x ≠ .free → s.claimValid = true := by simp [hfree]
  refine ⟨x, hx, fun p t ht => ⟨fun hf => ?_, fun hne => ?_⟩,
    fun p f d t ht => ⟨fun hc => ?_, fun hne hp => ?_⟩, fun p d hp hf => ?_,
    fun p t ht => ⟨fun hf => ?_, fun hne => ?_, fun loc hl => execToneStop_pinLevel hl ht⟩,
    fun c t ht => ⟨fun hno => ?_, fun hf => ?_, fun hidle => ?_⟩,
    fun i t ht hi => (toneFsm_other hi ht).trans hx⟩
  · exact toneFsm_claim_free (hfree.mp hf) (h.disabled_of_fsm_idle hx (.inl hf)) ht
  · exact hx ▸ toneFsm_claim_claimed (hclaimed hne) ht
  · exact toneFsm_start (canClaim_iff.mpr (hc.imp hfree.mp Eq.symm)) ht
  · obtain ⟨hquiet, -⟩ :=
      execToneStart_lost (canClaim_eq_false_iff.mpr ⟨hclaimed hne, Ne.symm hp⟩) ht
    exact ⟨(congrArg State.toneFsm hquiet).trans hx, hquiet⟩
  · obtain ⟨loc, hl⟩ := pinLoc_of_lt hp
    exact execToneStart_zeroFrequency d hl (canClaim_iff.mpr (.inl (hfree.mp hf)))
  · exact (toneFsm_stop_not_held (.inl (hfree.mp hf)) ht).trans (hf ▸ hx)
  · split_ifs with hp
    · exact toneFsm_stop_held (hclaimed hne) hp.symm ht
    · exact (toneFsm_stop_not_held (.inr (Ne.symm hp)) ht).trans hx
  · exact hx ▸ toneFsm_timer_quiet hno ht
  · obtain ⟨hie, -⟩ := firesToggle_iff.mp hf
    have hv := h.running_claimed hie
    obtain rfl := Option.some.inj (hx.symm.trans (toneFsm_of_running hv hie))
    obtain hneg | h0 | hpos := lt_trichotomy s.tc.toInt 0
    · rw [running_of_neg hneg]
      exact toneFsm_firing_unbounded hv hneg hf ht
    · have h0' : s.tc = 0#64 := BitVec.eq_of_toInt_eq h0
      rw [h0', running_zero]
      exact toneFsm_firing_last hv h0' hf ht
    · rw [running_of_pos hpos]
      exact toneFsm_firing_finite hv hpos hf ht
  · obtain ⟨n, rfl⟩ := exec_timer_of_disabled (h.disabled_of_fsm_idle hx hidle) ht
    rfl

end Sys2Proof.Machine

/-! PROOFS. The timer's commands by case (42_timer_handler.md sections 1 and 2): the counter (R160 to
R162, R167), what the two firings write (R163 to R166), and the remainder (R168). -/

namespace Sys2Proof.Machine

section
variable {s t : State} {c : TimerCommand}

/-! ### The counter (R160 to R162, R167) -/

/-- A tick below the match counts (R160). -/
theorem execTmrTick_of_ne (hm : s.tcnt ≠ s.cmp) : exec .tmrTick s = .next
    (s.beginCommand.setTcnt ((s.tcnt + 1) % 2 ^ s.cfg.cmpWidth)) := if_neg hm

/-- A tick on the match is a compare-match (R160, R161). -/
theorem execTmrTick_of_eq (hm : s.tcnt = s.cmp) : exec .tmrTick s = exec .tmrMatch s := if_pos hm

/-- A compare-match that finds the interrupt disabled restarts the counter alone (R162). -/
theorem execTmrMatch_of_disabled (hie : s.cmpIE = false) :
    exec .tmrMatch s = .next (s.beginCommand.setTcnt 0) := by
  have hb : ¬s.beginCommand.cmpIE = true := by simp [hie]
  exact if_neg hb

/-- Every timer command that matches does what TMR_MATCH does. -/
theorem exec_timer_of_matchesOn (hm : s.matchesOn c = true) :
    exec c.instr s = exec .tmrMatch s := by
  cases c with
  | tick => exact execTmrTick_of_eq (beq_iff_eq.mp hm)
  | compare => rfl

/-- A compare-match restarts the counter, so it forgets where the counter stood (R162). -/
theorem execTmrMatch_setTcnt (n : Nat) : exec .tmrMatch (s.setTcnt n) = exec .tmrMatch s := rfl

/-- After a compare-match the counter is 0 (R162). -/
theorem execTmrMatch_tcnt (h : exec .tmrMatch s = .next t) : t.tcnt = 0 := by
  obtain ⟨-, hhandler⟩ | ⟨-, rfl⟩ := compareMatch_eq_next (s := s.beginCommand) h
  · obtain ⟨-, hend⟩ | ⟨-, rfl⟩ := handler_eq_next hhandler
    · rw [reload_eq] at hend
      rw [endCheck_eq_next hend]
      rfl
    · rw [bookkeepingFiring_eq]
      rfl
  · rfl

/-- Settles O41: the two cases of a tick, and the match that the interrupt enable discards. -/
theorem tickCountsOrMatches : Obligations.TickCountsOrMatches := fun _ =>
  ⟨execTmrTick_of_ne, execTmrTick_of_eq, execTmrMatch_of_disabled⟩

/-! ### Repeated commands -/

theorem execTimes_succ (i : Instr) (n : Nat) (s : State) :
    execTimes i (n + 1) s = andThen (execTimes i n s) (exec i) := by
  induction n generalizing s with
  | zero =>
    rw [execTimes, execTimes, andThen_next]
    cases exec i s <;> rfl
  | succ n ih =>
    calc execTimes i (n + 2) s = andThen (exec i s) (execTimes i (n + 1)) := rfl
      _ = andThen (exec i s) fun u => andThen (execTimes i n u) (exec i) := by rw [funext ih]
      _ = andThen (execTimes i (n + 1) s) (exec i) := (andThen_assoc _ _ _).symm

/-- One more command after a run that is known but for the outputs of its last command. -/
theorem execTimes_succ_of_quiet {i : Instr} {n : Nat} {u : State} (ht : execTimes i n s = .next t)
    (hu : t.quiet = u.quiet) : execTimes i (n + 1) s = exec i u := by
  rw [execTimes_succ, ht, andThen_next, exec_of_quiet_eq i hu]

/-- Ticks up to the compare value count, one by one (R160). -/
theorem execTimes_tmrTick_of_le (hmax : s.cmp ≤ s.cfg.cmpMax) (h0 : s.tcnt = 0) (k : Nat)
    (hk : k ≤ s.cmp) :
    ∃ t, execTimes .tmrTick k s = .next t ∧ t.quiet = (s.setTcnt k).quiet := by
  induction k with
  | zero => exact ⟨s, rfl, by rw [← h0]; rfl⟩
  | succ k ih =>
    obtain ⟨t, ht, hq⟩ := ih (by omega)
    have hne : (s.setTcnt k).tcnt ≠ (s.setTcnt k).cmp := Nat.ne_of_lt hk
    have hwrap : (k + 1) % 2 ^ s.cfg.cmpWidth = k + 1 :=
      Nat.mod_eq_of_lt (by rw [← cmpMax_succ]; omega)
    refine ⟨_, (execTimes_succ_of_quiet ht hq).trans (execTmrTick_of_ne hne), ?_⟩
    simp only [State.setTcnt_tcnt, State.setTcnt_cfg, hwrap]
    rfl

/-- Settles O40: the ticks that count, and the one that matches. -/
theorem counterInterval : Obligations.CounterInterval := by
  intro s h0 hmax
  have hlast : execTimes .tmrTick (s.cmp + 1) s = exec .tmrMatch (s.setTcnt s.cmp) := by
    obtain ⟨t, ht, hq⟩ := execTimes_tmrTick_of_le hmax h0 s.cmp le_rfl
    rw [execTimes_succ_of_quiet ht hq]
    exact execTmrTick_of_eq rfl
  refine ⟨fun k hk => ?_, hlast, fun t ht => execTmrMatch_tcnt (hlast.symm.trans ht)⟩
  obtain ⟨t, ht, hq⟩ := execTimes_tmrTick_of_le hmax h0 k hk
  rw [ht, quietResult, andThen_next, hq]
  rfl

/-! ### The two firings (R163 to R166) -/

/-- A compare-match that runs the handler below the reload threshold (R163, R164). -/
theorem execTmrMatch_of_threshold (hie : s.cmpIE = true) (ht : s.atThreshold = true) :
    exec .tmrMatch s = endCheck (reload (s.beginCommand.setTcnt 0)) :=
  compareMatch_of_threshold (s := s.beginCommand) hie ht

/-- A compare-match that runs the handler at or above the reload threshold (R163, R165). -/
theorem execTmrMatch_of_not_threshold (hie : s.cmpIE = true) (ht : s.atThreshold = false) :
    exec .tmrMatch s = .next (bookkeepingFiring (s.beginCommand.setTcnt 0)) := by
  have ht0 : (s.beginCommand.setTcnt 0).atThreshold = false := ht
  change compareMatch s.beginCommand = _
  rw [compareMatch, if_pos (by exact hie), handler, ht0, if_neg Bool.false_ne_true]

/-- The reload in terms of `CMP_MAX` (R164). -/
theorem reload_eq_of_cmpMax (s : State) :
    reload s = s.setChunk (if s.cfg.cmpMax < s.fullPeriod.toNat then s.cfg.cmpMax else s.cmp)
      (if s.cfg.cmpMax < s.fullPeriod.toNat then s.fullPeriod else s.extRem) := by
  rw [reload_eq]
  simp only [fitsCmp_iff, ← Nat.not_lt, ite_not]

/-- A toggle firing leaves an enabled interrupt enabled, in the reading that `END_CHECK` selects
(R166). -/
def State.outlastsFiring (s : State) : Bool :=
  match s.cfg.endCheck with
  | .afterDecrement => decide (s.tc ≠ 0#64 ∧ s.tc ≠ 1#64)
  | .elseBranch => decide (s.tc ≠ 0#64)

theorem outlastsFiring_of_zero (h0 : s.tc = 0#64) : s.outlastsFiring = false := by
  unfold State.outlastsFiring
  cases s.cfg.endCheck <;> simp [h0]

theorem outlastsFiring_of_ne (h0 : s.tc ≠ 0#64) : s.outlastsFiring =
    !(decide (s.cfg.endCheck = .afterDecrement) && decide (s.tc = 1#64)) := by
  unfold State.outlastsFiring
  cases s.cfg.endCheck <;> simp [h0]

/-- The end check on any count, with an existing port (R166). -/
theorem endCheck_of_lt (hp : s.outPort.toNat < s.portOut.length) :
    endCheck s = .next
      { s with
        portOut :=
          if s.tc = 0#64 then s.portOut
          else s.portOut.modify s.outPort.toNat (· ^^^ s.outMask)
        pinCalls :=
          if s.tc = 0#64 then s.pinCalls else s.pinCalls ++ [.toggle s.outPort s.outMask]
        tc := if 0 < s.tc.toInt then s.tc - 1#64 else s.tc
        cmpIE := s.cmpIE && s.outlastsFiring } := by
  by_cases h0 : s.tc = 0#64
  · have htc : (if 0 < s.tc.toInt then s.tc - 1#64 else s.tc) = s.tc := if_neg (by simp [h0])
    rw [endCheck_of_zero h0, if_pos h0, if_pos h0, htc, outlastsFiring_of_zero h0, Bool.and_false]
    rfl
  · rw [endCheck_of_ne h0 hp, if_neg h0, if_neg h0, outlastsFiring_of_ne h0]
    simp only [State.tcPositive, decide_eq_true_eq]

/-- Settles O42: the reload, then the end check. -/
theorem toggleFiringEffect : Obligations.ToggleFiringEffect := by
  intro s hie hthr hport
  rw [execTmrMatch_of_threshold hie (decide_eq_true hthr), reload_eq_of_cmpMax,
    endCheck_of_lt (by simpa using hport)]
  simp only [State.setChunk_cmpIE, State.setTcnt_cmpIE, State.beginCommand_cmpIE, hie, Bool.true_and]
  rfl

/-- Settles O43: the rest of the first statement of R165, and its load when it fits. -/
theorem bookkeepingFiringEffect : Obligations.BookkeepingFiringEffect := by
  intro s hie hthr
  refine ⟨restOf s, fun hfits => ?_, fun hext hle => ?_, ?_⟩
  · rw [restOf, if_pos ((fitsCmp_iff _ _).mpr hfits)]
  · rw [restOf, (fitsCmp_eq_false_iff _ _).mpr hext, if_neg Bool.false_ne_true, lessChunk_toNat hle]
  · rw [execTmrMatch_of_not_threshold hie (decide_eq_false hthr.not_gt), bookkeepingFiring_eq]
    simp only [fitsCmp_iff]
    rfl

/-! ### The remainder (R168) -/

/-- The threshold is at most one more than `CMP_MAX`, and the compare register has a bit (R204). -/
theorem configOk_threshold {cfg : Config} (h : configOk cfg = true) :
    1 ≤ cfg.reloadThreshold ∧ cfg.reloadThreshold ≤ cfg.cmpMax + 1 ∧ 1 ≤ cfg.cmpMax := by
  simp only [configOk, Bool.and_eq_true, decide_eq_true_eq] at h
  have hwidth : 2 ^ 1 ≤ 2 ^ cfg.cmpWidth := Nat.pow_le_pow_right two_pos (by omega)
  have := cmpMax_succ cfg
  omega

theorem State.Inv.cmpMax_pos (h : s.Inv) : 1 ≤ s.cfg.cmpMax := by
  obtain ⟨-, -, hmax⟩ := configOk_threshold h.config_ok
  exact hmax

/-- Below the reload threshold the remainder is exhausted, and only there (R168). -/
theorem State.Inv.atThreshold_iff (h : s.Inv) : s.atThreshold = true ↔ s.extRem = 0#32 := by
  obtain ⟨hpos, hle, -⟩ := configOk_threshold h.config_ok
  rw [State.atThreshold, decide_eq_true_eq]
  constructor
  · intro hlt
    exact h.extRem_legal.resolve_right (by omega)
  · intro h0
    rw [h0]
    exact hpos

/-- What a bookkeeping firing writes: `CMP_MAX` leaves the remainder, and a rest that fits the compare
register becomes the final chunk (R165). -/
theorem State.Inv.bookkeeping_chunk (h : s.Inv) (hf : s.firesBookkeeping c = true)
    (ht : Machine.exec c.instr s = .next t) :
    s.cfg.cmpMax < s.extRem.toNat ∧ s.extRem.toNat ≤ s.fullPeriod.toNat ∧
    ((s.extRem.toNat ≤ 2 * s.cfg.cmpMax ∧
        t.extRem = 0#32 ∧ t.cmp = s.extRem.toNat - s.cfg.cmpMax) ∨
      (2 * s.cfg.cmpMax < s.extRem.toNat ∧
        t.extRem.toNat = s.extRem.toNat - s.cfg.cmpMax ∧ t.cmp = s.cmp)) := by
  obtain ⟨hie, hm, hthr⟩ := firesBookkeeping_iff.mp hf
  obtain ⟨hlt, hle⟩ := h.extRem_of_not_atThreshold hthr
  obtain ⟨r, -, hrest, heffect⟩ := bookkeepingFiringEffect s hie (Nat.le_of_not_lt
    (of_decide_eq_false hthr))
  have hr := hrest (hlt.trans_le hle) hlt.le
  rw [exec_timer_of_matchesOn hm, heffect] at ht
  cases ht
  refine ⟨hlt, hle, ?_⟩
  by_cases hfits : r.toNat ≤ s.cfg.cmpMax
  · exact .inl ⟨by omega, if_pos hfits, (if_pos hfits).trans hr⟩
  · exact .inr ⟨by omega, (congrArg BitVec.toNat (if_neg hfits)).trans hr, if_neg hfits⟩

/-- Settles O44: the legal remainders, the threshold, and the two results of a bookkeeping firing. -/
theorem remainderNeverUnderflows : Obligations.RemainderNeverUnderflows := by
  intro s h
  refine ⟨h.extRem_legal, decide_eq_true_iff.symm.trans h.atThreshold_iff, fun c t hf ht => ?_⟩
  obtain ⟨hlt, -, ⟨hfits, h0, hcmp⟩ | ⟨hmore, hrest, -⟩⟩ := h.bookkeeping_chunk hf ht
  · exact ⟨hlt, fun hne => absurd h0 hne, fun _ => ⟨hcmp, by omega, by omega⟩⟩
  · refine ⟨hlt, fun _ => hrest, fun h0 => ?_⟩
    have : t.extRem.toNat = 0 := congrArg BitVec.toNat h0
    omega

end

end Sys2Proof.Machine

/-! PROOFS. The chunk that the compare register holds (42_timer_handler.md R169): a start and a toggle
firing load the first chunk of a half-period, and every step keeps the chunk invariant. -/

namespace Sys2Proof.Machine

section
variable {s t : State} {c : TimerCommand}

/-! ### The first chunk of a half-period (R133, R164) -/

/-- The compare register and the remainder stand where `SetPeriod(fullPeriod)` puts them (R133). -/
def State.FirstChunk (s : State) : Prop :=
  (s.fullPeriod.toNat ≤ s.cfg.cmpMax → s.cmp = s.fullPeriod.toNat ∧ s.extRem = 0#32) ∧
    (s.cfg.cmpMax < s.fullPeriod.toNat → s.cmp = s.cfg.cmpMax ∧ s.extRem = s.fullPeriod)

theorem atHalfPeriodStart_iff :
    s.atHalfPeriodStart = true ↔ s.cmpIE = true ∧ s.tcnt = 0 ∧ s.FirstChunk := by
  unfold State.atHalfPeriodStart State.FirstChunk
  cases hf : fitsCmp s.cfg s.fullPeriod with
  | true =>
    have hle := (fitsCmp_iff _ _).mp hf
    simp [hle, hle.not_gt, and_assoc]
  | false =>
    have hlt := (fitsCmp_eq_false_iff _ _).mp hf
    simp [hlt, hlt.not_ge, and_assoc]

/-- The first chunk meets the chunk invariant. -/
theorem State.FirstChunk.chunkInv (hfirst : s.FirstChunk) (hmax : 1 ≤ s.cfg.cmpMax) :
    s.ChunkInv := by
  obtain ⟨hfits, hext⟩ := hfirst
  rcases Nat.lt_or_ge s.cfg.cmpMax s.fullPeriod.toNat with hlt | hle
  · obtain ⟨hcmp, hrem⟩ := hext hlt
    have hne : s.extRem ≠ 0#32 := by
      rw [hrem]
      intro h0
      rw [h0] at hlt
      exact absurd hlt (Nat.not_lt_zero _)
    exact
      { cmp_fits := fun hf => absurd ((fitsCmp_iff _ _).mp hf) hlt.not_ge
        cmp_chunk := fun _ => hcmp
        extRem_multiple := fun _ => by simp [hrem]
        final_positive := fun _ => hmax.trans_eq hcmp.symm
        final_multiple := fun h0 => absurd h0 hne }
  · obtain ⟨hcmp, hrem⟩ := hfits hle
    exact
      { cmp_fits := fun _ => hcmp
        cmp_chunk := fun hne => absurd hrem hne
        extRem_multiple := fun hne => absurd hrem hne
        final_positive := fun hf => absurd ((fitsCmp_eq_false_iff _ _).mp hf) hle.not_gt
        final_multiple := fun _ => by simp [hcmp] }

theorem startedTone_firstChunk (pin : PinId) (loc : PinLoc) (f : Frequency) (d : Duration)
    (s : State) : (startedTone pin loc f d s).FirstChunk := by
  rw [startedTone_eq]
  exact ⟨fun hle => ⟨if_pos hle, if_pos hle⟩, fun hlt => ⟨if_neg hlt.not_ge, if_neg hlt.not_ge⟩⟩

/-- A timer command writes neither the period nor the configuration (R42). -/
theorem exec_timer_fullPeriod (h : exec c.instr s = .next t) :
    t.cfg = s.cfg ∧ t.fullPeriod = s.fullPeriod := by
  cases c <;> rw [exec_frame h] <;> exact ⟨rfl, rfl⟩

/-- A toggle firing starts the period again, where a period that fits was whole in the compare register
and left no remainder (R164). -/
theorem firesToggle_firstChunk (hf : s.firesToggle c = true) (ht : exec c.instr s = .next t)
    (hwhole : s.fullPeriod.toNat ≤ s.cfg.cmpMax → s.cmp = s.fullPeriod.toNat ∧ s.extRem = 0#32) :
    t.FirstChunk := by
  have hend := endCheck_of_firesToggle hf ht
  rw [reload_eq_of_cmpMax] at hend
  rw [endCheck_eq_next hend]
  refine ⟨fun hle => ?_, fun hlt => ⟨if_pos hlt, if_pos hlt⟩⟩
  obtain ⟨hcmp, hrem⟩ := hwhole hle
  exact ⟨(if_neg (Nat.not_lt.mpr hle)).trans hcmp, (if_neg (Nat.not_lt.mpr hle)).trans hrem⟩

/-! ### The chunk invariant (R169) -/

theorem State.ChunkInv.congr (hk : s.ChunkInv) (hcfg : t.cfg = s.cfg)
    (hp : t.fullPeriod = s.fullPeriod) (hc : t.cmp = s.cmp) (hr : t.extRem = s.extRem) :
    t.ChunkInv where
  cmp_fits := by simpa only [hcfg, hp, hc] using hk.cmp_fits
  cmp_chunk := by simpa only [hcfg, hc, hr] using hk.cmp_chunk
  extRem_multiple := by simpa only [hcfg, hp, hr] using hk.extRem_multiple
  final_positive := by simpa only [hcfg, hp, hc] using hk.final_positive
  final_multiple := by simpa only [hcfg, hp, hc, hr] using hk.final_multiple

/-- A bookkeeping firing goes from one chunk to the next: one more `CMP_MAX` is consumed (R165). -/
theorem State.ChunkInv.bookkeeping (h : s.Inv) (hk : s.ChunkInv)
    (hf : s.firesBookkeeping c = true) (ht : Machine.exec c.instr s = .next t) : t.ChunkInv := by
  obtain ⟨hcfg, hp⟩ := exec_timer_fullPeriod ht
  obtain ⟨hlt, hle, hchunk⟩ := h.bookkeeping_chunk hf ht
  have hext : ¬ s.fullPeriod.toNat ≤ s.cfg.cmpMax := (hlt.trans_le hle).not_ge
  have hne : s.extRem ≠ 0#32 := fun h0 => by simp [h0] at hlt
  have hmore : s.cfg.cmpMax ∣ s.fullPeriod.toNat - (s.extRem.toNat - s.cfg.cmpMax) := by
    rw [show s.fullPeriod.toNat - (s.extRem.toNat - s.cfg.cmpMax) =
      s.fullPeriod.toNat - s.extRem.toNat + s.cfg.cmpMax by omega]
    exact Nat.dvd_add (hk.extRem_multiple hne) dvd_rfl
  obtain ⟨-, hrem, hcmp⟩ | ⟨hrest, hrem, hcmp⟩ := hchunk
  · exact
      { cmp_fits := fun hfit => absurd ((fitsCmp_iff _ _).mp hfit) (by rwa [hcfg, hp])
        cmp_chunk := fun h0 => absurd hrem h0
        extRem_multiple := fun h0 => absurd hrem h0
        final_positive := fun _ => by omega
        final_multiple := fun _ => by
          rw [hcfg, hp, hcmp]
          exact ⟨by omega, hmore⟩ }
  · have hmax : s.cmp = s.cfg.cmpMax := hk.cmp_chunk hne
    have hne' : t.extRem ≠ 0#32 := fun h0 => by
      rw [h0] at hrem
      have : (0#32).toNat = 0 := rfl
      omega
    exact
      { cmp_fits := fun hfit => absurd ((fitsCmp_iff _ _).mp hfit) (by rwa [hcfg, hp])
        cmp_chunk := fun _ => by rw [hcmp, hmax, hcfg]
        extRem_multiple := fun _ => by rwa [hcfg, hp, hrem]
        final_positive := fun _ => by
          rw [hcmp, hmax]
          exact h.cmpMax_pos
        final_multiple := fun h0 => absurd h0 hne' }

/-- A timer command keeps the chunk invariant: it reloads, takes a chunk, or moves the counter. -/
theorem State.ChunkInv.exec_timer (h : s.Inv) (hk : s.ChunkInv)
    (ht : Machine.exec c.instr s = .next t) : t.ChunkInv := by
  have hmax := h.cmpMax_pos
  obtain ⟨hf, -⟩ | ⟨hf, -⟩ | ⟨-, n, rfl⟩ := exec_timer_eq_next ht
  · obtain ⟨-, -, hthr⟩ := firesToggle_iff.mp hf
    obtain ⟨hcfg, -⟩ := exec_timer_fullPeriod ht
    have hwhole (hle : s.fullPeriod.toNat ≤ s.cfg.cmpMax) :
        s.cmp = s.fullPeriod.toNat ∧ s.extRem = 0#32 :=
      ⟨hk.cmp_fits ((fitsCmp_iff _ _).mpr hle), h.atThreshold_iff.mp hthr⟩
    exact (firesToggle_firstChunk hf ht hwhole).chunkInv (by rwa [hcfg])
  · exact hk.bookkeeping h hf ht
  · exact hk.congr rfl rfl rfl rfl

/-- A start that takes the claim loads the first chunk of its period, and a lost one changes no
register. -/
theorem State.ChunkInv.execToneStart (h : s.Inv) (hk : s.ChunkInv) {pin : PinId} {f : Frequency}
    {d : Duration} (ht : Machine.execToneStart pin f d s = .next t) : t.ChunkInv := by
  have hmax := h.cmpMax_pos
  obtain ⟨-, loc, -, -, rfl⟩ | ⟨-, rfl⟩ := execToneStart_eq_next ht
  · exact (startedTone_firstChunk pin loc f d s).chunkInv
      (by rwa [← startedTone_cfg pin loc f d s] at hmax)
  · exact hk.congr rfl rfl rfl rfl

/-- Every command keeps the chunk invariant; only a start and the timer touch its registers. -/
theorem State.ChunkInv.exec (h : s.Inv) (hk : s.ChunkInv) {i : Instr}
    (ht : Machine.exec i s = .next t) : t.ChunkInv := by
  have hframe := exec_frame ht
  cases i with
  | toneStart pin f d => exact hk.execToneStart h ht
  | tmrTick => exact hk.exec_timer h (c := .tick) ht
  | tmrMatch => exact hk.exec_timer h (c := .compare) ht
  | rbStore | rbAvailable | rbPeek | rbRead | rbFlush | rbOvfcount | toneClaim | toneStop
  | toneStatus =>
    rw [hframe]
    exact hk.congr rfl rfl rfl rfl

theorem State.ChunkInv.runCommand (h : s.Inv) (hk : s.ChunkInv) {port : Port} {w : CommandWord}
    (ht : Machine.runCommand port w s = .next t) : t.ChunkInv := by
  unfold Machine.runCommand at ht
  cases hd : decode s.cfg.hasOvfCounter port w with
  | error reason =>
    rw [hd] at ht
    cases ht
    exact hk.congr rfl rfl rfl rfl
  | ok i =>
    rw [hd] at ht
    obtain hexec | ⟨reason, -, rfl⟩ := settle_eq_next ht
    · exact hk.exec h hexec
    · exact hk.congr rfl rfl rfl rfl

theorem State.ChunkInv.runEvent (h : s.Inv) (hk : s.ChunkInv) {e : Event}
    (ht : Machine.runEvent e s = .next t) : t.ChunkInv := by
  cases e with
  | command port w => exact hk.runCommand h ht
  | reset contents =>
    cases ht
    exact (powerUp_chunkInv s.cfg [] s.portOut s.portDir).congr rfl rfl rfl rfl

end

/-- Settles O53: the idle step, and the step that takes an event. -/
theorem stepKeepsChunks : Obligations.StepKeepsChunks := by
  intro s t h hk ht
  cases hi : s.inbox with
  | nil =>
    rw [step_idle h.config_ok hi] at ht
    cases ht
    exact hk
  | cons e rest =>
    rw [step_event h.config_ok hi] at ht
    exact (hk.congr (t := s.setInbox rest) rfl rfl rfl rfl).runEvent (h.setInbox rest) ht

end Sys2Proof.Machine

/-! PROOFS. A half-period (42_timer_handler.md R169, R170): its intervals, first by compare-matches and
then by ticks. -/

namespace Sys2Proof.Machine

/-! ### The arithmetic of chunks -/

section
variable {m p : Nat}

theorem bookkeepingChunks_of_le (h : p ≤ m) : bookkeepingChunks m p = 0 := by
  have hle : (p + (m - 1)) / m ≤ 1 := by
    rcases Nat.eq_zero_or_pos m with rfl | hm
    · simp
    · exact Nat.le_of_lt_succ ((Nat.div_lt_iff_lt_mul hm).mpr (by omega))
  unfold bookkeepingChunks
  omega

/-- Of an extended period at least one chunk is consumed before the final one, which is not empty and
fits the register (R169). -/
theorem bookkeepingChunks_of_lt (hm : 1 ≤ m) (h : m < p) :
    1 ≤ bookkeepingChunks m p ∧ bookkeepingChunks m p * m < p ∧
      p ≤ bookkeepingChunks m p * m + m := by
  have hlow := Nat.div_mul_le_self (p + (m - 1)) m
  have hhigh := Nat.lt_div_mul_add (a := p + (m - 1)) hm
  have hq : 2 ≤ (p + (m - 1)) / m := (Nat.le_div_iff_mul_le hm).mpr (by omega)
  obtain ⟨k, hk⟩ := Nat.exists_eq_add_of_le' hq
  have hchunks : bookkeepingChunks m p = k + 1 := by rw [bookkeepingChunks, hk]; rfl
  rw [hk, show (k + 2) * m = (k + 1) * m + m from Nat.succ_mul _ _] at hlow hhigh
  rw [hchunks]
  omega

/-- The chunks before the final one do not exceed the period, and leave at most one chunk. -/
theorem bookkeepingChunks_mul_le (hm : 1 ≤ m) :
    bookkeepingChunks m p * m ≤ p ∧ p ≤ bookkeepingChunks m p * m + m := by
  rcases Nat.lt_or_ge m p with hlt | hle
  · obtain ⟨-, hlow, hhigh⟩ := bookkeepingChunks_of_lt hm hlt
    exact ⟨hlow.le, hhigh⟩
  · simp [bookkeepingChunks_of_le hle, hle]

/-- A chunk before the final one leaves more than one chunk. -/
theorem lt_sub_of_lt_bookkeepingChunks {j : Nat} (hm : 1 ≤ m) (hj : j < bookkeepingChunks m p) :
    j * m + m < p := by
  have hlt : m < p := Nat.lt_of_not_le fun hle => by
    rw [bookkeepingChunks_of_le hle] at hj
    exact absurd hj (Nat.not_lt_zero j)
  obtain ⟨-, hlow, -⟩ := bookkeepingChunks_of_lt hm hlt
  calc j * m + m = (j + 1) * m := (Nat.succ_mul j m).symm
    _ ≤ bookkeepingChunks m p * m := Nat.mul_le_mul_right m hj
    _ < p := hlow

theorem intervalCompare_of_lt {j : Nat} (hj : j < bookkeepingChunks m p) :
    intervalCompare m p j = m := if_pos hj

theorem intervalCompare_last :
    intervalCompare m p (bookkeepingChunks m p) = p - bookkeepingChunks m p * m :=
  if_neg (lt_irrefl _)

theorem sum_intervalCompare_of_le {n : Nat} (hn : n ≤ bookkeepingChunks m p) :
    ((List.range n).map (intervalCompare m p)).sum = n * m := by
  induction n with
  | zero => simp
  | succ n ih =>
    rw [List.range_succ, List.map_append, List.sum_append, ih (by omega), Nat.succ_mul]
    simp [intervalCompare_of_lt (p := p) (Nat.lt_of_succ_le hn)]

/-- The compare values of a half-period sum to its period (R169). -/
theorem sum_intervalCompare (hm : 1 ≤ m) :
    ((List.range (bookkeepingChunks m p + 1)).map (intervalCompare m p)).sum = p := by
  obtain ⟨hle, -⟩ := bookkeepingChunks_mul_le (p := p) hm
  rw [List.range_succ, List.map_append, List.sum_append, sum_intervalCompare_of_le le_rfl]
  simpa [intervalCompare_last] using Nat.add_sub_of_le hle

/-- A half-period has one firing for each chunk (R170). -/
theorem halfPeriodTicks_eq (m p : Nat) :
    halfPeriodTicks m p = p + bookkeepingChunks m p + 1 := by
  unfold halfPeriodTicks firingsOf bookkeepingChunks
  omega

end

/-! ### The state at each interval -/

/-- The remainder during the `j`-th interval of a half-period: what the chunks before it left of the
period, and nothing during the last (R165). -/
def State.remainder (s : State) (j : Nat) : Period :=
  if j < s.chunks then BitVec.ofNat 32 (s.fullPeriod.toNat - j * s.cfg.cmpMax) else 0#32

/-- The state at the start of the `j`-th interval of the half-period that `s` is in, but for the
outputs. -/
def State.atInterval (s : State) (j : Nat) : State :=
  (s.quiet.setTcnt 0).setChunk (s.interval j) (s.remainder j)

section
variable {s t : State} {j : Nat}

theorem remainder_toNat (hj : j < s.chunks) :
    (s.remainder j).toNat = s.fullPeriod.toNat - j * s.cfg.cmpMax := by
  rw [State.remainder, if_pos hj, BitVec.toNat_ofNat]
  exact Nat.mod_eq_of_lt (Nat.lt_of_le_of_lt (Nat.sub_le _ _) s.fullPeriod.isLt)

theorem remainder_of_not_lt (hj : ¬ j < s.chunks) : s.remainder j = 0#32 := if_neg hj

theorem interval_of_lt (hj : j < s.chunks) : s.interval j = s.cfg.cmpMax :=
  intervalCompare_of_lt hj

theorem interval_last : s.interval s.chunks = s.fullPeriod.toNat - s.chunks * s.cfg.cmpMax :=
  intervalCompare_last

theorem chunks_of_le (h : s.fullPeriod.toNat ≤ s.cfg.cmpMax) : s.chunks = 0 :=
  bookkeepingChunks_of_le h

theorem State.Inv.interval_le (h : s.Inv) (hj : j ≤ s.chunks) : s.interval j ≤ s.cfg.cmpMax := by
  rcases Nat.lt_or_eq_of_le hj with hlt | rfl
  · exact (interval_of_lt hlt).le
  · have hbounds := bookkeepingChunks_mul_le (p := s.fullPeriod.toNat) h.cmpMax_pos
    rw [interval_last, State.chunks]
    omega

/-- A period that fits is one interval, whole in the compare register. -/
theorem interval_zero_of_le (hle : s.fullPeriod.toNat ≤ s.cfg.cmpMax) :
    s.interval 0 = s.fullPeriod.toNat := by
  have hlast := interval_last (s := s)
  rwa [chunks_of_le hle, Nat.zero_mul, Nat.sub_zero] at hlast

/-- A half-period starts with its interval 0. -/
theorem State.Inv.quiet_of_start (h : s.Inv) (hs : s.atHalfPeriodStart = true) :
    s.quiet = s.atInterval 0 := by
  obtain ⟨-, h0, hfits, hext⟩ := atHalfPeriodStart_iff.mp hs
  have hchunk : s.cmp = s.interval 0 ∧ s.extRem = s.remainder 0 := by
    rcases Nat.lt_or_ge s.cfg.cmpMax s.fullPeriod.toNat with hlt | hle
    · obtain ⟨hcmp, hrem⟩ := hext hlt
      have hpos : 0 < s.chunks := (bookkeepingChunks_of_lt h.cmpMax_pos hlt).1
      refine ⟨hcmp.trans (interval_of_lt hpos).symm, hrem.trans (BitVec.eq_of_toNat_eq ?_)⟩
      simp [remainder_toNat hpos]
    · obtain ⟨hcmp, hrem⟩ := hfits hle
      exact ⟨hcmp.trans (interval_zero_of_le hle).symm,
        hrem.trans (remainder_of_not_lt (by simp [chunks_of_le hle])).symm⟩
  obtain ⟨hcmp, hrem⟩ := hchunk
  calc s.quiet = (s.quiet.setTcnt s.tcnt).setChunk s.cmp s.extRem := rfl
    _ = s.atInterval 0 := by rw [h0, hcmp, hrem, State.atInterval]

/-- The last interval is the one that ends below the reload threshold (R163). -/
theorem State.Inv.atInterval_atThreshold_iff (h : s.Inv) (hj : j ≤ s.chunks) :
    (s.atInterval j).atThreshold = true ↔ j = s.chunks := by
  obtain ⟨hpos, hmax, -⟩ := configOk_threshold h.config_ok
  have hthr : (s.atInterval j).atThreshold = true ↔
      (s.remainder j).toNat < s.cfg.reloadThreshold := decide_eq_true_iff
  rw [hthr]
  rcases Nat.lt_or_eq_of_le hj with hlt | rfl
  · have hmore := lt_sub_of_lt_bookkeepingChunks h.cmpMax_pos hlt
    rw [remainder_toNat hlt]
    omega
  · rw [remainder_of_not_lt (lt_irrefl _)]
    exact iff_of_true hpos rfl

/-- The chunk after an interval before the last: the rest becomes the final chunk when it fits the
register, and is left as the remainder otherwise. -/
theorem State.Inv.next_interval (h : s.Inv) (hj : j < s.chunks) {r : Period}
    (hr : r.toNat = s.fullPeriod.toNat - (j + 1) * s.cfg.cmpMax) :
    (if r.toNat ≤ s.cfg.cmpMax then r.toNat else s.interval j) = s.interval (j + 1) ∧
      (if r.toNat ≤ s.cfg.cmpMax then 0#32 else r) = s.remainder (j + 1) := by
  rcases Nat.lt_or_eq_of_le (show j + 1 ≤ s.chunks from hj) with hlt | hlast
  · have hmore := lt_sub_of_lt_bookkeepingChunks h.cmpMax_pos hlt
    have hnofit : ¬ r.toNat ≤ s.cfg.cmpMax := by omega
    rw [if_neg hnofit, if_neg hnofit, interval_of_lt hj, interval_of_lt hlt]
    exact ⟨rfl, BitVec.eq_of_toNat_eq (hr.trans (remainder_toNat hlt).symm)⟩
  · have hint : s.interval (j + 1) = r.toNat := by rw [hr, hlast, interval_last]
    have hfit : r.toNat ≤ s.cfg.cmpMax := hint.symm.trans_le (h.interval_le hlast.le)
    rw [if_pos hfit, if_pos hfit, hint, remainder_of_not_lt hlast.not_lt]
    exact ⟨rfl, rfl⟩

/-- The compare-match that ends an interval before the last starts the next one (R165). -/
theorem State.Inv.tmrMatch_atInterval (h : s.Inv) (hie : s.cmpIE = true) (hj : j < s.chunks) :
    Machine.exec .tmrMatch (s.atInterval j) = .next (s.atInterval (j + 1)) := by
  have hmore := lt_sub_of_lt_bookkeepingChunks h.cmpMax_pos hj
  have hrem : (s.atInterval j).extRem.toNat = s.fullPeriod.toNat - j * s.cfg.cmpMax :=
    remainder_toNat hj
  have hthr : s.cfg.reloadThreshold ≤ (s.atInterval j).extRem.toNat := by
    have := configOk_threshold h.config_ok
    omega
  obtain ⟨r, -, hrest, heffect⟩ := bookkeepingFiringEffect (s.atInterval j) hie hthr
  have hr : r.toNat = (s.atInterval j).extRem.toNat - s.cfg.cmpMax :=
    hrest (show s.cfg.cmpMax < s.fullPeriod.toNat by omega)
      (show s.cfg.cmpMax ≤ (s.atInterval j).extRem.toNat by omega)
  obtain ⟨hcmp, hext⟩ := h.next_interval hj (r := r) (by rw [hr, hrem, Nat.succ_mul, Nat.sub_sub])
  rw [heffect]
  exact congrArg Host.Outcome.next (congrArg₂ (s.quiet.setTcnt 0).setChunk hcmp hext)

/-! ### By compare-matches (R169) -/

/-- After `j` compare-matches the `j`-th interval starts. -/
theorem State.Inv.execTimes_tmrMatch (h : s.Inv) (hs : s.atHalfPeriodStart = true)
    (hj : j ≤ s.chunks) :
    ∃ t, execTimes .tmrMatch j s = .next t ∧ t.quiet = s.atInterval j := by
  obtain ⟨hie, -⟩ := atHalfPeriodStart_iff.mp hs
  induction j with
  | zero => exact ⟨s, rfl, h.quiet_of_start hs⟩
  | succ j ih =>
    obtain ⟨t, ht, hq⟩ := ih (by omega)
    exact ⟨_, (execTimes_succ_of_quiet (u := s.atInterval j) ht hq).trans
      (h.tmrMatch_atInterval hie hj), rfl⟩

end

/-- Settles O45: the state at each interval, and the arithmetic of chunks. -/
theorem chunksSumToPeriod : Obligations.ChunksSumToPeriod := by
  intro s h hs
  obtain ⟨hie, -⟩ := atHalfPeriodStart_iff.mp hs
  refine ⟨fun j hj => ?_, sum_intervalCompare h.cmpMax_pos, fun hlt => ?_⟩
  · obtain ⟨t, ht, hq⟩ := h.execTimes_tmrMatch hs hj
    have hiet : t.cmpIE = true := (congrArg State.cmpIE hq).trans hie
    have hthr : t.atThreshold = true ↔ j = s.chunks := by
      rw [← h.atInterval_atThreshold_iff hj, ← hq]
      rfl
    refine ⟨t, ht, congrArg State.cmp hq, ?_, ?_, (congrArg State.tc hq :),
      (congrArg State.portOut hq :)⟩
    · rw [firesBookkeeping_iff, ← Bool.not_eq_true, hthr]
      have : j < s.chunks ↔ j ≠ s.chunks := by omega
      simp [hiet, State.matchesOn, this]
    · simp [firesToggle_iff, hiet, State.matchesOn, hthr]
  · obtain ⟨hpos, hlow, hhigh⟩ := bookkeepingChunks_of_lt h.cmpMax_pos hlt
    refine ⟨hpos, fun j hj => interval_of_lt hj, ?_, h.interval_le le_rfl⟩
    rw [interval_last, State.chunks]
    omega

/-! ### By ticks (R170) -/

section
variable {s t : State} {n : Nat}

/-- `n` ticks after the start of the half-period that `s` is in, the block is in state `t`: in some
interval, with the counter in its range. Every interval before it took `CMP_MAX + 1` ticks. -/
def State.TickedTo (s : State) (n : Nat) (t : State) : Prop :=
  ∃ j i, n = j * (s.cfg.cmpMax + 1) + i ∧ j ≤ s.chunks ∧ i ≤ s.interval j ∧
    t.quiet = (s.atInterval j).setTcnt i

/-- A half-period ends with the tick after the counter reaches the last compare value. -/
theorem State.Inv.halfPeriod_eq (h : s.Inv) :
    s.halfPeriod = s.chunks * (s.cfg.cmpMax + 1) + s.interval s.chunks + 1 := by
  obtain ⟨hle, -⟩ := bookkeepingChunks_mul_le (p := s.fullPeriod.toNat) h.cmpMax_pos
  rw [State.halfPeriod, halfPeriodTicks_eq, interval_last, State.chunks, Nat.mul_succ]
  omega

/-- The position in a half-period, from the number of ticks: the last interval ends with the
half-period, and every other before it. -/
theorem State.Inv.last_position_iff (h : s.Inv) {j i : Nat} (hj : j ≤ s.chunks)
    (hi : i ≤ s.interval j) :
    j * (s.cfg.cmpMax + 1) + i + 1 = s.halfPeriod ↔ i = s.interval j ∧ j = s.chunks := by
  rw [h.halfPeriod_eq]
  rcases Nat.lt_or_eq_of_le hj with hlt | rfl
  · have hmul : (j + 1) * (s.cfg.cmpMax + 1) ≤ s.chunks * (s.cfg.cmpMax + 1) :=
      Nat.mul_le_mul_right _ hlt
    rw [Nat.succ_mul] at hmul
    rw [interval_of_lt hlt] at hi ⊢
    omega
  · omega

/-- A tick within an interval counts. -/
theorem State.Inv.tick_within (h : s.Inv) {j i : Nat} (hj : j ≤ s.chunks)
    (hi : i < s.interval j) : Machine.exec .tmrTick ((s.atInterval j).setTcnt i) =
      .next ((s.atInterval j).setTcnt (i + 1)) := by
  have hwrap : (i + 1) % 2 ^ s.cfg.cmpWidth = i + 1 :=
    Nat.mod_eq_of_lt (by rw [← cmpMax_succ]; exact Nat.lt_succ_of_le (hi.trans_le (h.interval_le hj)))
  exact (execTmrTick_of_ne (Nat.ne_of_lt hi)).trans
    (congrArg (fun k => Host.Outcome.next ((s.atInterval j).setTcnt k)) hwrap)

/-- The tick that ends an interval is its compare-match. -/
theorem tick_at_end (s : State) (j : Nat) :
    exec .tmrTick ((s.atInterval j).setTcnt (s.interval j)) =
      exec .tmrMatch (s.atInterval j) :=
  (execTmrTick_of_eq rfl).trans (execTmrMatch_setTcnt _)

/-- Ticks run through the intervals of the half-period, one after the other. -/
theorem State.Inv.execTimes_tmrTick (h : s.Inv) (hs : s.atHalfPeriodStart = true)
    (hn : n < s.halfPeriod) : ∃ t, execTimes .tmrTick n s = .next t ∧ s.TickedTo n t := by
  obtain ⟨hie, -⟩ := atHalfPeriodStart_iff.mp hs
  induction n with
  | zero =>
    exact ⟨s, rfl, 0, 0, by simp, Nat.zero_le _, Nat.zero_le _, h.quiet_of_start hs⟩
  | succ n ih =>
    obtain ⟨t, ht, j, i, hpos, hj, hi, hq⟩ := ih (by omega)
    have hnext := execTimes_succ_of_quiet (u := (s.atInterval j).setTcnt i) ht hq
    rcases Nat.lt_or_eq_of_le hi with hlt | rfl
    · exact ⟨_, hnext.trans (h.tick_within hj hlt), j, i + 1, by omega, hj, hlt, rfl⟩
    · have hlast := h.last_position_iff hj le_rfl
      have hjlt : j < s.chunks := by omega
      rw [tick_at_end, h.tmrMatch_atInterval hie hjlt] at hnext
      refine ⟨_, hnext, j + 1, 0, ?_, hjlt, Nat.zero_le _, rfl⟩
      rw [hpos, interval_of_lt hjlt, Nat.succ_mul]
      omega

/-- Within a half-period only its last tick is a toggle firing. -/
theorem State.Inv.tickedTo_firesToggle (h : s.Inv) (hie : s.cmpIE = true) (ht : s.TickedTo n t) :
    t.firesToggle .tick = true ↔ n + 1 = s.halfPeriod := by
  obtain ⟨j, i, rfl, hj, hi, hq⟩ := ht
  have hmatch : t.matchesOn .tick = true ↔ i = s.interval j := by
    have htcnt : t.tcnt = i := (congrArg State.tcnt hq :)
    have hcmp : t.cmp = s.interval j := (congrArg State.cmp hq :)
    rw [State.matchesOn, htcnt, hcmp, beq_iff_eq]
  have hthr : t.atThreshold = true ↔ j = s.chunks := by
    rw [← h.atInterval_atThreshold_iff hj]
    exact Eq.congr_left (congrArg State.atThreshold hq :)
  have hiet : t.cmpIE = true := (congrArg State.cmpIE hq).trans hie
  rw [firesToggle_iff, hmatch, hthr, h.last_position_iff hj hi]
  simp [hiet]

/-- During a half-period the pin and the countdown stand still. -/
theorem State.TickedTo.frame (ht : s.TickedTo n t) : t.portOut = s.portOut ∧ t.tc = s.tc := by
  obtain ⟨j, i, -, -, -, hq⟩ := ht
  exact ⟨(congrArg State.portOut hq :), (congrArg State.tc hq :)⟩

/-- The last tick of a half-period toggles unless the count is 0, and where it leaves the interrupt
enabled the next half-period of the same period starts (R164). -/
theorem State.Inv.tick_ends_halfPeriod (h : s.Inv) (hie : s.cmpIE = true) (ht : s.TickedTo n t)
    (hn : n + 1 = s.halfPeriod) :
    ∃ u, Machine.exec .tmrTick t = .next u ∧
      u.portOut = (if s.tc = 0#64 then s.portOut
        else s.portOut.modify s.outPort.toNat (· ^^^ s.outMask)) ∧
      (u.cmpIE = true → u.atHalfPeriodStart = true ∧ u.fullPeriod = s.fullPeriod) := by
  obtain ⟨j, i, rfl, hj, hi, hq⟩ := ht
  obtain ⟨rfl, rfl⟩ := (h.last_position_iff hj hi).mp hn
  have hthr := (h.atInterval_atThreshold_iff le_rfl).mpr rfl
  have hmatch : Machine.exec .tmrTick t = Machine.exec .tmrMatch (s.atInterval s.chunks) :=
    (exec_of_quiet_eq .tmrTick (t := (s.atInterval s.chunks).setTcnt _) hq).trans
      (tick_at_end s s.chunks)
  have heffect := toggleFiringEffect (s.atInterval s.chunks) hie (of_decide_eq_true hthr)
    (h.outPort_lt.trans_eq h.portOut_length.symm)
  have hfires : (s.atInterval s.chunks).firesToggle .compare = true :=
    firesToggle_iff.mpr ⟨hie, rfl, hthr⟩
  have hwhole (hle : s.fullPeriod.toNat ≤ s.cfg.cmpMax) :
      s.interval s.chunks = s.fullPeriod.toNat ∧ s.remainder s.chunks = 0#32 :=
    ⟨by rw [chunks_of_le hle, interval_zero_of_le hle], remainder_of_not_lt (lt_irrefl _)⟩
  have hfirst := firesToggle_firstChunk hfires heffect hwhole
  exact ⟨_, hmatch.trans heffect, rfl,
    fun hieu => ⟨atHalfPeriodStart_iff.mpr ⟨hieu, rfl, hfirst⟩, rfl⟩⟩

end

/-- Settles O46: the ticks before the last of the half-period, the last, and the five lengths. -/
theorem halfPeriodLength : Obligations.HalfPeriodLength := by
  refine ⟨fun s h hs => ⟨fun k hk => ?_, ?_⟩, by decide, by decide, by decide, by decide, by decide⟩
  · obtain ⟨hie, -⟩ := atHalfPeriodStart_iff.mp hs
    obtain ⟨t, ht, hpos⟩ := h.execTimes_tmrTick hs (Nat.lt_of_succ_lt hk)
    have hno : ¬ t.firesToggle .tick = true := by
      rw [h.tickedTo_firesToggle hie hpos]
      exact hk.ne
    exact ⟨t, ht, Bool.eq_false_of_not_eq_true hno, hpos.frame⟩
  · obtain ⟨hie, -⟩ := atHalfPeriodStart_iff.mp hs
    have hlast : s.halfPeriod - 1 + 1 = s.halfPeriod := by rw [h.halfPeriod_eq]; rfl
    obtain ⟨t, ht, hpos⟩ := h.execTimes_tmrTick (n := s.halfPeriod - 1) hs (by omega)
    obtain ⟨hout, htc⟩ := hpos.frame
    obtain ⟨u, hu, hrest⟩ := h.tick_ends_halfPeriod hie hpos hlast
    exact ⟨t, u, ht, (h.tickedTo_firesToggle hie hpos).mpr hlast, hout, htc, hu, hrest⟩

end Sys2Proof.Machine

/-! PROOFS. The length of a tone (42_timer_handler.md R171): how many toggle firings are left, which
every firing takes one from, and the tally of a run. -/

namespace Sys2Proof.Machine

section
variable {s t : State} {c : TimerCommand} {cs : List TimerCommand} {r : TimerTally}

/-! ### Runs of timer commands -/

theorem timerRun_cons_eq_some : timerRun (c :: cs) s = some r ↔
    ∃ t r', exec c.instr s = .next t ∧ timerRun cs t = some r' ∧
      r = ⟨(if s.firesToggle c then 1 else 0) + r'.firings, t.toggles + r'.toggles, r'.final⟩ := by
  rw [timerRun]
  cases exec c.instr s with
  | next u =>
    constructor
    · intro h
      obtain ⟨r', hr', rfl⟩ := Option.map_eq_some_iff.mp h
      exact ⟨u, r', rfl, hr', rfl⟩
    · rintro ⟨_, r', hu, hr', rfl⟩
      cases hu
      exact Option.map_eq_some_iff.mpr ⟨r', hr', rfl⟩
  | fault f => simp
  | refused x => simp

/-- A timer command completes when its port is there: it is never refused. -/
theorem exec_timer_completes (hp : s.outPort.toNat < s.portOut.length) (c : TimerCommand) :
    ∃ t, exec c.instr s = .next t := by
  cases hm : s.matchesOn c with
  | false =>
    cases c with
    | tick => exact ⟨_, execTmrTick_of_ne (beq_eq_false_iff_ne.mp hm)⟩
    | compare => cases hm
  | true =>
    rw [exec_timer_of_matchesOn hm]
    cases hie : s.cmpIE with
    | false => exact ⟨_, execTmrMatch_of_disabled hie⟩
    | true =>
      rcases Nat.lt_or_ge s.extRem.toNat s.cfg.reloadThreshold with hthr | hthr
      · exact ⟨_, toggleFiringEffect s hie hthr hp⟩
      · exact ⟨_, execTmrMatch_of_not_threshold hie (decide_eq_false hthr.not_gt)⟩

theorem State.Inv.exec_timer (h : s.Inv) (c : TimerCommand) :
    ∃ t, Machine.exec c.instr s = .next t ∧ t.Inv := by
  obtain ⟨t, ht⟩ := exec_timer_completes (h.outPort_lt.trans_eq h.portOut_length.symm) c
  obtain ⟨t', ht', hinv⟩ | ⟨reason, hr⟩ := h.exec c.instr
  · exact ⟨t', ht', hinv⟩
  · rw [ht] at hr
    cases hr

theorem State.Inv.timerRun_completes (h : s.Inv) (cs : List TimerCommand) :
    ∃ r, timerRun cs s = some r := by
  induction cs generalizing s with
  | nil => exact ⟨_, rfl⟩
  | cons c rest ih =>
    obtain ⟨t, ht, hinv⟩ := h.exec_timer c
    obtain ⟨r, hr⟩ := ih hinv
    exact ⟨_, timerRun_cons_eq_some.mpr ⟨t, r, ht, hr, rfl⟩⟩

/-! ### A finite count -/

/-- The toggle firings until the interrupt goes off, from a count that is not negative: one for each
toggle left, and one more where the end check finds the count at 0 only then (R166). -/
def State.firingsLeft (s : State) : Nat :=
  if s.cmpIE then
    if s.cfg.endCheck = .afterDecrement ∧ s.tc ≠ 0#64 then s.tc.toInt.toNat
    else s.tc.toInt.toNat + 1
  else 0

theorem firingsLeft_of_disabled (hie : s.cmpIE = false) : s.firingsLeft = 0 := by
  simp [State.firingsLeft, hie]

theorem firingsLeft_afterDecrement (hie : s.cmpIE = true) (he : s.cfg.endCheck = .afterDecrement)
    (h0 : s.tc ≠ 0#64) : s.firingsLeft = s.tc.toInt.toNat := by
  simp [State.firingsLeft, hie, he, h0]

theorem firingsLeft_one_more (hie : s.cmpIE = true)
    (h : s.cfg.endCheck = .elseBranch ∨ s.tc = 0#64) :
    s.firingsLeft = s.tc.toInt.toNat + 1 := by
  obtain he | h0 := h
  · simp [State.firingsLeft, hie, he]
  · simp [State.firingsLeft, hie, h0]

theorem toInt_pos_of_ne {n : Countdown} (hn : 0 ≤ n.toInt) (h0 : n ≠ 0#64) : 0 < n.toInt :=
  lt_of_le_of_ne hn fun hz => h0 (BitVec.eq_of_toInt_eq hz.symm)

/-- The interrupt is off if and only if no toggle firing is left. -/
theorem firingsLeft_eq_zero_iff (hn : 0 ≤ s.tc.toInt) :
    s.firingsLeft = 0 ↔ s.cmpIE = false := by
  refine ⟨fun hzero => ?_, firingsLeft_of_disabled⟩
  by_contra hie
  rw [Bool.not_eq_false] at hie
  by_cases hend : s.cfg.endCheck = .afterDecrement ∧ s.tc ≠ 0#64
  · obtain ⟨he, h0⟩ := hend
    have := toInt_pos_of_ne hn h0
    rw [firingsLeft_afterDecrement hie he h0] at hzero
    omega
  · rw [State.firingsLeft, if_pos hie, if_neg hend] at hzero
    omega

theorem toInt_sub_one {n : Countdown} (h : 0 < n.toInt) : (n - 1#64).toInt = n.toInt - 1 := by
  have := n.isLt
  simp only [BitVec.toInt_eq_toNat_cond] at h ⊢
  bv_omega

/-- A toggle firing on a count that is not 0 toggles once, counts down, and leaves one toggle firing
less (R166). -/
theorem firesToggle_countdown (hpos : 0 < s.tc.toInt) (hf : s.firesToggle c = true)
    (ht : exec c.instr s = .next t) :
    t.toggles = 1 ∧ t.tc.toInt = s.tc.toInt - 1 ∧ s.firingsLeft = 1 + t.firingsLeft := by
  obtain ⟨hie, -⟩ := firesToggle_iff.mp hf
  obtain ⟨hcfg, -⟩ := exec_timer_fullPeriod ht
  have h0 : s.tc ≠ 0#64 := fun h0 => hpos.ne' (by rw [h0]; rfl)
  obtain ⟨htoggles, htc, hiet⟩ := firesToggle_of_ne hf ht h0
  have htc' : t.tc = s.tc - 1#64 := htc.trans (if_pos (decide_eq_true hpos))
  have hdec : t.tc.toInt = s.tc.toInt - 1 := by rw [htc', toInt_sub_one hpos]
  refine ⟨htoggles, hdec, ?_⟩
  cases he : s.cfg.endCheck with
  | elseBranch =>
    rw [firingsLeft_one_more hie (.inl he),
      firingsLeft_one_more (by simp [hiet, hie, he]) (.inl (hcfg ▸ he))]
    omega
  | afterDecrement =>
    rw [firingsLeft_afterDecrement hie he h0]
    by_cases h1 : s.tc = 1#64
    · rw [firingsLeft_of_disabled (by simp [hiet, he, h1]), h1]
      rfl
    · have h0' : t.tc ≠ 0#64 := fun hz => (toInt_sub_one_pos hpos h1).ne' (by rw [← htc', hz]; rfl)
      rw [firingsLeft_afterDecrement (by simp [hiet, hie, h1]) (hcfg ▸ he) h0']
      omega

/-- The toggle firing on the count 0 is the last (R166). -/
theorem firesToggle_ends (h0 : s.tc = 0#64) (hf : s.firesToggle c = true)
    (ht : exec c.instr s = .next t) :
    t.toggles = 0 ∧ t.tc = s.tc ∧ s.firingsLeft = 1 + t.firingsLeft := by
  obtain ⟨hie, -⟩ := firesToggle_iff.mp hf
  obtain ⟨htoggles, hiet⟩ := firesToggle_of_zero hf ht h0
  have hend := endCheck_of_firesToggle hf ht
  rw [reload_eq, endCheck_of_zero (by simpa using h0)] at hend
  refine ⟨htoggles, by cases hend; rfl, ?_⟩
  rw [firingsLeft_one_more hie (.inr h0), firingsLeft_of_disabled hiet, h0]
  rfl

/-- Every timer command on a count that is not negative: a toggle firing takes one from the firings left,
and with a toggle one from the count where there is one; no other command does. -/
theorem exec_timer_tally (hn : 0 ≤ s.tc.toInt) (ht : exec c.instr s = .next t) :
    t.toggles = min (if s.firesToggle c then 1 else 0) s.tc.toInt.toNat ∧
      t.tc.toInt = s.tc.toInt - t.toggles ∧
      s.firingsLeft = (if s.firesToggle c then 1 else 0) + t.firingsLeft := by
  cases hf : s.firesToggle c with
  | false =>
    obtain ⟨hcfg, -⟩ := exec_timer_fullPeriod ht
    obtain ⟨hcalls, hie, htc⟩ := exec_timer_of_not_firesToggle hf ht
    have htoggles : t.toggles = 0 := by simp [State.toggles, hcalls]
    simp [htoggles, htc, State.firingsLeft, hie, hcfg]
  | true =>
    rw [if_pos rfl]
    by_cases h0 : s.tc = 0#64
    · obtain ⟨htoggles, htc, hleft⟩ := firesToggle_ends h0 hf ht
      simp [htoggles, htc, hleft, h0]
    · have hpos := toInt_pos_of_ne hn h0
      obtain ⟨htoggles, hdec, hleft⟩ := firesToggle_countdown hpos hf ht
      omega

/-- The tally of a run from a count that is not negative: the toggles are the first toggle firings, as
many as the count allows, and the interrupt is off if and only if no firing is left. -/
theorem timerRun_of_nonneg (hn : 0 ≤ s.tc.toInt) (hr : timerRun cs s = some r) :
    r.toggles = min r.firings s.tc.toInt.toNat ∧ r.final.tc.toInt = s.tc.toInt - r.toggles ∧
      r.firings ≤ s.firingsLeft ∧ (r.final.cmpIE = false ↔ r.firings = s.firingsLeft) := by
  induction cs generalizing s r with
  | nil =>
    cases hr
    simp [← firingsLeft_eq_zero_iff hn, eq_comm]
  | cons c rest ih =>
    obtain ⟨t, r', ht, hrest, rfl⟩ := timerRun_cons_eq_some.mp hr
    obtain ⟨htoggles, htc, hleft⟩ := exec_timer_tally hn ht
    obtain ⟨htoggles', htc', hle, hoff⟩ := ih (by omega) hrest
    dsimp only
    rw [hoff]
    omega

/-! ### An unbounded count -/

/-- Every timer command on a negative count: a toggle firing toggles, and nothing ends the tone. -/
theorem exec_timer_of_neg (hn : s.tc.toInt < 0) (ht : exec c.instr s = .next t) :
    t.toggles = (if s.firesToggle c then 1 else 0) ∧ t.cmpIE = s.cmpIE ∧ t.tc = s.tc := by
  cases hf : s.firesToggle c with
  | false =>
    obtain ⟨hcalls, hkept⟩ := exec_timer_of_not_firesToggle hf ht
    exact ⟨by simp [State.toggles, hcalls], hkept⟩
  | true =>
    have h0 : s.tc ≠ 0#64 := fun h0 => hn.ne (by rw [h0]; rfl)
    have h1 : s.tc ≠ 1#64 := fun h1 => absurd hn (by rw [h1]; decide)
    obtain ⟨htoggles, htc, hie⟩ := firesToggle_of_ne hf ht h0
    exact ⟨htoggles, by simpa [h1] using hie,
      htc.trans (if_neg (by simpa [State.tcPositive] using hn.le))⟩

theorem timerRun_of_neg (hn : s.tc.toInt < 0) (hr : timerRun cs s = some r) :
    r.toggles = r.firings ∧ r.final.cmpIE = s.cmpIE ∧ r.final.tc = s.tc := by
  induction cs generalizing s r with
  | nil =>
    cases hr
    exact ⟨rfl, rfl, rfl⟩
  | cons c rest ih =>
    obtain ⟨t, r', ht, hrest, rfl⟩ := timerRun_cons_eq_some.mp hr
    obtain ⟨htoggles, hie, htc⟩ := exec_timer_of_neg hn ht
    obtain ⟨htoggles', hie', htc'⟩ := ih (htc ▸ hn) hrest
    exact ⟨by rw [htoggles, htoggles'], hie'.trans hie, htc'.trans htc⟩

end

/-- Settles O47: the tally of a run, with the firings that each reading of the end check allows. -/
theorem finiteToneLength : Obligations.FiniteToneLength := by
  intro cs s h hie
  obtain ⟨r, hr⟩ := h.timerRun_completes cs
  refine ⟨r, hr, fun n hn => ?_, fun hneg => ?_⟩
  · have hcount : s.tc.toInt.toNat = n := by rw [hn]; rfl
    obtain ⟨htoggles, htc, hle, hoff⟩ := timerRun_of_nonneg (by omega) hr
    rw [hcount] at htoggles
    refine ⟨by rw [htc, hn], fun he hn0 => ?_, fun hcase => ?_⟩
    · have h0 : s.tc ≠ 0#64 := fun h0 => hn0 (by rw [← hcount, h0]; rfl)
      rw [firingsLeft_afterDecrement hie he h0, hcount] at hle hoff
      exact ⟨by omega, hle, hoff⟩
    · have hcase' : s.cfg.endCheck = .elseBranch ∨ s.tc = 0#64 :=
        hcase.imp_right fun hz => BitVec.eq_of_toInt_eq (by rw [hn, hz]; rfl)
      rw [firingsLeft_one_more hie hcase', hcount] at hle hoff
      exact ⟨htoggles, hle, hoff⟩
  · obtain ⟨htoggles, hie', htc⟩ := timerRun_of_neg hneg hr
    exact ⟨htoggles, hie'.trans hie, htc⟩

end Sys2Proof.Machine

/-! PROOFS. Refusals and completion (60_exceptions.md R200 to R204, R207): a configuration outside its
domain stops every step, the lowest cause that applies to a word is the one reported, a word to which
no cause applies runs, and receive and timer commands commute. -/

namespace Sys2Proof.Machine

/-! ### The domain of a configuration (R204) -/

/-- One set bit among the eight is a place that holds the only one. -/
theorem oneHot_place {m : PortMask} (h : oneHot m = true) :
    ∃ k, k < 8 ∧ ∀ j, j < 8 → (m.getLsbD j = true ↔ j = k) := by
  have hcount : ((List.range 8).filter fun k => m.getLsbD k).length = 1 :=
    List.countP_eq_length_filter.symm.trans (beq_iff_eq.mp h)
  obtain ⟨k, hk⟩ := List.length_eq_one_iff.mp hcount
  have place (j : Nat) : (j < 8 ∧ m.getLsbD j = true) ↔ j = k := by
    rw [← List.mem_singleton (a := j), ← hk, List.mem_filter, List.mem_range]
  obtain ⟨hlt, -⟩ := (place k).mpr rfl
  exact ⟨k, hlt, fun j hj => (and_iff_right hj).symm.trans (place j)⟩

theorem configOk_le {cfg : Config} (h : configOk cfg = true) :
    cfg.numPins ≤ 256 ∧ cfg.numPorts ≤ 256 := by
  simp only [configOk, Bool.and_eq_true, decide_eq_true_eq] at h
  omega

theorem step_of_badConfig {s : State} (hc : configOk s.cfg = false) :
    step s = .refused .configuration := by
  simp [step, hc]

/-- Settles O12: a configuration that passes the check meets every bound, and each entry of its
`PIN_MAP` names a port that is there and one bit of it. -/
theorem badConfigurationRefused : Obligations.BadConfigurationRefused := by
  intro s hbad
  refine step_of_badConfig (Bool.eq_false_iff.mpr fun hc => ?_)
  obtain ⟨hcap, -, hpins, hports⟩ := configOk_bounds hc
  obtain ⟨hpos, hthr, -⟩ := configOk_threshold hc
  obtain ⟨hpins', hports'⟩ := configOk_le hc
  obtain h | h | h | h | h | h | h | ⟨pin, loc, hl, hloc⟩ := hbad
  case inr.inr.inr.inr.inr.inr.inr =>
    obtain ⟨hport, hmask⟩ := pinLoc_ok hc hl
    exact hloc.elim hport.not_ge fun hno => hno (oneHot_place hmask)
  all_goals omega

/-! ### Completion (R62, R200) -/

/-- Settles O54: the step completes, and the invariant it keeps is not asked for here. -/
theorem everyStepCompletes : Obligations.EveryStepCompletes := by
  intro s h
  obtain ⟨t, ht, -⟩ := h.step
  exact ⟨t, ht⟩

/-! ### The order of receive and timer commands (R207) -/

section
variable {s t : State}

/-- `s` with the registers that RB_STORE owns taken from `t` (R42). -/
def State.withReceive (s t : State) : State :=
  { s with head := t.head, storage := t.storage, ovfCount := t.ovfCount }

/-- RB_STORE reads no register of the timer: on a state with other ones it writes what it writes
here. -/
theorem execRbStore_withTimer {c : Byte} (hh : s.head < s.cfg.cap) (h : execRbStore c s = .next t)
    (u : State) : execRbStore c (s.withTimer u) = .next ((s.withTimer u).withReceive t).quiet := by
  by_cases hfull : nextIdx s.cfg s.head = s.tail
  · rw [execRbStore_of_full c hfull, countOverflow_eq] at h
    cases h
    rw [execRbStore_of_full (s := s.withTimer u) c hfull, countOverflow_eq]
    rfl
  · rw [execRbStore_of_room c hfull hh] at h
    cases h
    exact execRbStore_of_room (s := s.withTimer u) c hfull hh

theorem execTmrMatch_withReceive (hp : s.outPort.toNat < s.portOut.length)
    (h : exec .tmrMatch s = .next t) (u : State) :
    exec .tmrMatch (s.withReceive u) = .next ((s.withReceive u).withTimer t) := by
  cases hie : s.cmpIE with
  | false =>
    rw [execTmrMatch_of_disabled hie] at h
    cases h
    exact execTmrMatch_of_disabled (s := s.withReceive u) hie
  | true =>
    rcases Nat.lt_or_ge s.extRem.toNat s.cfg.reloadThreshold with hthr | hthr
    · rw [toggleFiringEffect s hie hthr hp] at h
      cases h
      exact toggleFiringEffect (s.withReceive u) hie hthr hp
    · rw [execTmrMatch_of_not_threshold hie (decide_eq_false hthr.not_gt), bookkeepingFiring_eq] at h
      cases h
      rw [execTmrMatch_of_not_threshold (s := s.withReceive u) hie (decide_eq_false hthr.not_gt),
        bookkeepingFiring_eq]
      rfl

/-- A timer command reads no register of the receive side: on a state with other ones it writes what
it writes here. -/
theorem exec_timer_withReceive {k : TimerCommand} (hp : s.outPort.toNat < s.portOut.length)
    (h : exec k.instr s = .next t) (u : State) :
    exec k.instr (s.withReceive u) = .next ((s.withReceive u).withTimer t) := by
  cases hm : s.matchesOn k with
  | true =>
    have hm' : (s.withReceive u).matchesOn k = true := by cases k <;> exact hm
    rw [exec_timer_of_matchesOn hm] at h
    rw [exec_timer_of_matchesOn hm']
    exact execTmrMatch_withReceive hp h u
  | false =>
    cases k with
    | compare => cases hm
    | tick =>
      have hne : s.tcnt ≠ s.cmp := beq_eq_false_iff_ne.mp hm
      cases (execTmrTick_of_ne hne).symm.trans h
      exact execTmrTick_of_ne (s := s.withReceive u) hne

/-- Settles O51: each command leaves the other's registers alone and reads none of them, so that either
order writes the registers of both. -/
theorem receiveAndTimerCommute : Obligations.ReceiveAndTimerCommute := by
  intro s c k h
  obtain ⟨t, ht, -⟩ := execRbStore_completes h c
  obtain ⟨u, hu, -⟩ := h.exec_timer k
  have hstored : t.quiet = (s.withReceive t).quiet :=
    (congrArg State.quiet (execRbStore_frame ht)).trans rfl
  have hticked : u = s.withTimer u := by cases k <;> exact exec_frame hu
  have htimer : exec k.instr t = .next ((s.withReceive t).withTimer u) :=
    (exec_of_quiet_eq _ hstored).trans
      (exec_timer_withReceive (h.outPort_lt.trans_eq h.portOut_length.symm) hu t)
  have hstore : exec (.rbStore c) u = .next ((s.withTimer u).withReceive t).quiet :=
    (congrArg (exec (.rbStore c)) hticked).trans (execRbStore_withTimer h.head_lt ht u)
  have hfirst : exec (.rbStore c) s = .next t := ht
  exact ⟨(s.withReceive t).withTimer u, ((s.withTimer u).withReceive t).quiet,
    by rw [hfirst, andThen_next, htimer], by rw [hu, andThen_next, hstore], rfl⟩

end

/-! ### The causes of a refusal (R201) -/

section
variable {s t : State} {port : Port} {w : CommandWord} {r : RefuseReason} {m : Mnemonic} {i : Instr}

/-- A reserved opcode has no port, no format and no operands: it is the one cause. -/
theorem causeApplies_of_reserved (hm : mnemonicOf s.cfg.hasOvfCounter (fieldOp w) = none) :
    s.causeApplies port w r ↔ r = .reservedOpcode := by
  cases r <;> simp [State.causeApplies, hm]

theorem not_causeApplies_reservedOpcode
    (hm : mnemonicOf s.cfg.hasOvfCounter (fieldOp w) = some m) :
    ¬s.causeApplies port w .reservedOpcode := by
  simp [State.causeApplies, hm]

theorem causeApplies_wrongPort (hm : mnemonicOf s.cfg.hasOvfCounter (fieldOp w) = some m) :
    s.causeApplies port w .wrongPort ↔ port ≠ m.port := by
  simp [State.causeApplies, hm]

theorem causeApplies_nonzeroReserved (hm : mnemonicOf s.cfg.hasOvfCounter (fieldOp w) = some m) :
    s.causeApplies port w .nonzeroReserved ↔ reservedBitsZero w m.format = false := by
  simp [State.causeApplies, hm]

/-- The command that a word spells with a given mnemonic (R73). -/
def spelledBy (m : Mnemonic) (w : CommandWord) : Instr :=
  m.withOperands (fieldData w) (fieldPin w) (fieldFreq w) (fieldDur w)

/-- A word whose pin is not on the board spells a command whose pin is out of range, for the mnemonics
with a pin. -/
theorem causeApplies_pinOutOfRange (hm : mnemonicOf s.cfg.hasOvfCounter (fieldOp w) = some m) :
    s.causeApplies port w .pinOutOfRange ↔ (spelledBy m w).pinInRange s.cfg = false := by
  cases m <;> simp [State.causeApplies, hm, spelledBy, Mnemonic.withOperands, Instr.pinInRange]

theorem causeApplies_zeroFrequency (hm : mnemonicOf s.cfg.hasOvfCounter (fieldOp w) = some m) :
    s.causeApplies port w .zeroFrequency ↔
      ∃ pin d, spelledBy m w = .toneStart pin 0#16 d ∧ s.canClaim pin = true := by
  cases m <;> simp [State.causeApplies, hm, spelledBy, Mnemonic.withOperands]

/-- A word that no cause of decoding refuses decodes (R83). -/
theorem decode_of_no_cause (hm : mnemonicOf s.cfg.hasOvfCounter (fieldOp w) = some m)
    (hport : ¬s.causeApplies port w .wrongPort) (hzero : ¬s.causeApplies port w .nonzeroReserved) :
    decode s.cfg.hasOvfCounter port w = .ok (spelledBy m w) := by
  rw [causeApplies_wrongPort hm] at hport
  rw [causeApplies_nonzeroReserved hm] at hzero
  rw [decode_of_mnemonic hm, if_neg hport, if_neg hzero, spelledBy]

/-! ### The lowest cause is reported (R202, R203) -/

/-- The cause applies to the word, and none with a lower code does. -/
structure State.LowestCause (s : State) (port : Port) (w : CommandWord) (r : RefuseReason) :
    Prop where
  applies : s.causeApplies port w r
  lowest : ∀ r', s.causeApplies port w r' → r.code ≤ r'.code

theorem State.LowestCause.not_below (h : s.LowestCause port w r) {r' : RefuseReason}
    (hlt : r'.code < r.code) : ¬s.causeApplies port w r' :=
  fun happlies => (h.lowest r' happlies).not_gt hlt

theorem runCommand_of_error (hd : decode s.cfg.hasOvfCounter port w = .error r) :
    runCommand port w s = .next (s.markRefused r) := by
  rw [runCommand, hd]

theorem runCommand_of_ok (hd : decode s.cfg.hasOvfCounter port w = .ok i) :
    runCommand port w s = settle s (exec i s) := by
  rw [runCommand, hd]

theorem runCommand_of_refuse (hd : decode s.cfg.hasOvfCounter port w = .ok i)
    (hr : exec i s = refuse r) : runCommand port w s = .next (s.markRefused r) := by
  rw [runCommand_of_ok hd, hr, settle_refuse]

theorem exec_of_pinOutOfRange (h : i.pinInRange s.cfg = false) :
    exec i s = refuse .pinOutOfRange := by
  cases i with
  | toneClaim pin =>
    exact execToneClaim_of_noPin (pinLoc_of_le (Nat.not_lt.mp (of_decide_eq_false h)))
  | toneStart pin f d =>
    exact execToneStart_of_noPin f d (pinLoc_of_le (Nat.not_lt.mp (of_decide_eq_false h)))
  | toneStop pin =>
    exact execToneStop_of_noPin (pinLoc_of_le (Nat.not_lt.mp (of_decide_eq_false h)))
  | rbStore _ | rbAvailable | rbPeek | rbRead | rbFlush | rbOvfcount | toneStatus | tmrTick
  | tmrMatch => cases h

theorem exec_toneStart_of_zeroFrequency {pin : PinId} (d : Duration)
    (hpin : (Instr.toneStart pin 0#16 d).pinInRange s.cfg = true) (hc : s.canClaim pin = true) :
    exec (.toneStart pin 0#16 d) s = refuse .zeroFrequency := by
  obtain ⟨loc, hl⟩ := pinLoc_of_lt (of_decide_eq_true hpin)
  exact execToneStart_zeroFrequency d hl hc

/-- The checks of decoding and of the command rules run in the order of the codes (R83, R203). -/
theorem runCommand_of_lowestCause (h : s.LowestCause port w r) :
    runCommand port w s = .next (s.markRefused r) := by
  cases hm : mnemonicOf s.cfg.hasOvfCounter (fieldOp w) with
  | none =>
    obtain rfl := (causeApplies_of_reserved hm).mp h.applies
    exact runCommand_of_error (decode_error_reservedOpcode hm)
  | some m =>
    cases r with
    | reservedOpcode => exact absurd h.applies (not_causeApplies_reservedOpcode hm)
    | wrongPort =>
      have hport := (causeApplies_wrongPort hm).mp h.applies
      exact runCommand_of_error ((decode_eq_wrongPort hm).mpr hport)
    | nonzeroReserved =>
      obtain rfl : port = m.port :=
        not_not.mp (mt (causeApplies_wrongPort hm).mpr (h.not_below (by decide)))
      have hzero := (causeApplies_nonzeroReserved hm).mp h.applies
      exact runCommand_of_error ((decode_eq_nonzeroReserved hm).mpr hzero)
    | pinOutOfRange =>
      have hd := decode_of_no_cause hm (h.not_below (by decide)) (h.not_below (by decide))
      have hpin := (causeApplies_pinOutOfRange hm).mp h.applies
      exact runCommand_of_refuse hd (exec_of_pinOutOfRange hpin)
    | zeroFrequency =>
      have hd := decode_of_no_cause hm (h.not_below (by decide)) (h.not_below (by decide))
      have hpin := mt (causeApplies_pinOutOfRange (port := port) hm).mpr (h.not_below (by decide))
      obtain ⟨pin, d, hi, hc⟩ := (causeApplies_zeroFrequency hm).mp h.applies
      rw [hi] at hd hpin
      exact runCommand_of_refuse hd
        (exec_toneStart_of_zeroFrequency d (Bool.not_eq_false _ ▸ hpin) hc)

/-! ### A word to which no cause applies runs -/

theorem execRbStore_runs (hh : s.head < s.cfg.cap) (c : Byte) :
    ∃ t, execRbStore c s = .next t ∧ t.refusal = none := by
  by_cases hfull : nextIdx s.cfg s.head = s.tail
  · exact ⟨_, execRbStore_of_full c hfull, by rw [countOverflow_eq]; rfl⟩
  · exact ⟨_, execRbStore_of_room c hfull hh, rfl⟩

/-- A timer command clears the reason of the refusal before it, and the handler leaves it so. -/
theorem State.Inv.exec_timer_runs (h : s.Inv) (k : TimerCommand) :
    ∃ t, Machine.exec k.instr s = .next t ∧ t.refusal = none := by
  obtain ⟨t, ht, -⟩ := h.exec_timer k
  refine ⟨t, ht, ?_⟩
  obtain ⟨-, hend⟩ | ⟨-, rfl⟩ | ⟨-, n, rfl⟩ := exec_timer_eq_next ht
  · rw [reload_eq] at hend
    rw [endCheck_eq_next hend]
    rfl
  · rw [bookkeepingFiring_eq]
    rfl
  · rfl

theorem State.Inv.execToneStart_runs (h : s.Inv) {pin : PinId} {f : Frequency} (d : Duration)
    (hpin : pin.toNat < s.cfg.numPins) (hf : f = 0#16 → s.canClaim pin = false) :
    ∃ t, Machine.execToneStart pin f d s = .next t ∧ t.refusal = none := by
  obtain ⟨loc, hl⟩ := pinLoc_of_lt hpin
  cases hc : s.canClaim pin with
  | false => exact ⟨_, execToneStart_of_not_canClaim f d hl hc, rfl⟩
  | true =>
    have hf0 : f ≠ 0#16 := fun h0 => Bool.false_ne_true ((hf h0).symm.trans hc)
    obtain ⟨hport, -⟩ := pinLoc_ok h.config_ok hl
    exact ⟨_, (execToneStart_eq_next_of_canClaim hc).mpr
      ⟨loc, hl, hf0, hport.trans_eq h.portDir_length.symm, rfl⟩, by rw [startedTone_eq]⟩

theorem State.Inv.execToneStop_runs (h : s.Inv) {pin : PinId} (hpin : pin.toNat < s.cfg.numPins) :
    ∃ t, Machine.execToneStop pin s = .next t ∧ t.refusal = none := by
  obtain ⟨loc, hl⟩ := pinLoc_of_lt hpin
  obtain ⟨hport, -⟩ := pinLoc_ok h.config_ok hl
  refine ⟨_, execToneStop_eq_next.mpr ⟨loc, hl, hport.trans_eq h.portOut_length.symm, rfl⟩, ?_⟩
  rw [stoppedTone, releaseClaim_eq]
  rfl

/-- A command that is there, on a pin of the board, and at a frequency other than 0 where its claim
would succeed completes, and leaves no refusal (R106, R131, R132, R135). -/
theorem State.Inv.exec_runs (h : s.Inv) (hpresent : i.present s.cfg = true)
    (hpin : i.pinInRange s.cfg = true)
    (hfreq : ¬∃ pin d, i = .toneStart pin 0#16 d ∧ s.canClaim pin = true) :
    ∃ t, Machine.exec i s = .next t ∧ t.refusal = none := by
  cases i with
  | rbStore c => exact execRbStore_runs h.head_lt c
  | rbAvailable | rbFlush | toneStatus => exact ⟨_, rfl, rfl⟩
  | rbPeek =>
    by_cases hempty : s.head = s.tail
    · exact ⟨_, execRbPeek_of_empty hempty, rfl⟩
    · exact ⟨_, execRbPeek_of_ne hempty h.tail_lt, rfl⟩
  | rbRead =>
    by_cases hempty : s.head = s.tail
    · exact ⟨_, execRbRead_of_empty hempty, rfl⟩
    · exact ⟨_, execRbRead_of_ne hempty h.tail_lt, rfl⟩
  | rbOvfcount => exact ⟨_, if_pos hpresent, rfl⟩
  | toneClaim pin =>
    obtain ⟨loc, hl⟩ := pinLoc_of_lt (of_decide_eq_true hpin)
    cases hc : s.canClaim pin with
    | false => exact ⟨_, execToneClaim_of_not_canClaim hl hc, rfl⟩
    | true => exact ⟨_, execToneClaim_of_canClaim hl hc, rfl⟩
  | toneStart pin f d =>
    refine h.execToneStart_runs d (of_decide_eq_true hpin) ?_
    rintro rfl
    exact Bool.eq_false_iff.mpr fun hc => hfreq ⟨pin, d, rfl, hc⟩
  | toneStop pin => exact h.execToneStop_runs (of_decide_eq_true hpin)
  | tmrTick => exact h.exec_timer_runs .tick
  | tmrMatch => exact h.exec_timer_runs .compare

/-- RB_OVFCOUNT is spelled only where the counter is there (R75). -/
theorem spelledBy_present (hm : mnemonicOf s.cfg.hasOvfCounter (fieldOp w) = some m) :
    (spelledBy m w).present s.cfg = true := by
  obtain ⟨-, hovf⟩ := (mnemonicOf_eq_some _ _ _).mp hm
  refine wellFormed_iff.mpr ?_
  rw [spelledBy, withOperands_mnemonic]
  exact hovf

theorem State.Inv.runCommand_of_no_cause (h : s.Inv) (hno : ∀ r, ¬s.causeApplies port w r) :
    ∃ t, Machine.runCommand port w s = .next t ∧ t.refused = s.refused ∧ t.refusal = none := by
  cases hm : mnemonicOf s.cfg.hasOvfCounter (fieldOp w) with
  | none => exact absurd ((causeApplies_of_reserved hm).mpr rfl) (hno .reservedOpcode)
  | some m =>
    have hpin := mt (causeApplies_pinOutOfRange hm).mpr (hno .pinOutOfRange)
    have hfreq := mt (causeApplies_zeroFrequency hm).mpr (hno .zeroFrequency)
    obtain ⟨t, ht, hrefusal⟩ :=
      h.exec_runs (spelledBy_present hm) (Bool.not_eq_false _ ▸ hpin) hfreq
    have hd := decode_of_no_cause hm (hno .wrongPort) (hno .nonzeroReserved)
    obtain ⟨-, -, -, -, -, -, -, -, hrefused, -⟩ := fieldOwnership _ _ _ ht
    exact ⟨t, by rw [runCommand_of_ok hd, ht, settle_next], hrefused, hrefusal⟩

end

/-- Settles O11: taking the word from the inbox changes no cause, and the checks report the lowest. -/
theorem lowestCauseRefuses : Obligations.LowestCauseRefuses := by
  refine fun s port w rest hc hi => ⟨fun r happlies hlowest => ?_, fun h hno => ?_⟩
  · have hlow : (s.setInbox rest).LowestCause port w r := ⟨happlies, hlowest⟩
    exact (step_event hc hi).trans (runCommand_of_lowestCause hlow)
  · rw [step_event hc hi]
    exact (h.setInbox rest).runCommand_of_no_cause (port := port) (w := w) hno

end Sys2Proof.Machine

/-! PROOFS. Reset and hazards (70_reset_and_hazards.md): what the reset input and the state after it hold
(R230, R231), what alone clears the two marks (R232), and the bounds on a timer event's work (R241) and
on the stores between two reads (R242). -/

namespace Sys2Proof.Machine

section
variable {s t u : State}

/-! ### What a step that completes did -/

/-- A step completes under a configuration in its domain alone (R204). -/
theorem configOk_of_step (h : step s = .next t) : configOk s.cfg = true := by
  by_contra hc
  simp [step, hc] at h

/-- A step that completes found no event and left the state as it is, or took the first event and ran
it (R54, R58). -/
theorem step_eq_next (h : step s = .next t) :
    (s.inbox = [] ∧ t = s) ∨
      ∃ e rest, s.inbox = e :: rest ∧ runEvent e (s.setInbox rest) = .next t := by
  have hc := configOk_of_step h
  cases hi : s.inbox with
  | nil =>
    rw [step_idle hc hi] at h
    cases h
    exact .inl ⟨rfl, rfl⟩
  | cons e rest =>
    rw [step_event hc hi] at h
    exact .inr ⟨e, rest, rfl, h⟩

/-! ### The state after reset (R231) -/

/-- A buffer at power-up is empty (R230). -/
theorem powerUp_empty (cfg : Config) (m : Memory) (portOut portDir : List Byte) :
    (State.powerUp cfg m portOut portDir).head = (State.powerUp cfg m portOut portDir).tail := rfl

/-- A counter that stands at its reset value with `cmp = 0` matches on every tick, and while the
interrupt is disabled the match is discarded, so that the tick moves nothing but the outputs (R231). -/
theorem execTmrTick_of_parked (htcnt : s.tcnt = 0) (hcmp : s.cmp = 0) (hie : s.cmpIE = false) :
    exec .tmrTick s = .next s.beginCommand := by
  rw [execTmrTick_of_eq (htcnt.trans hcmp.symm), execTmrMatch_of_disabled hie, ← htcnt]
  rfl

/-- A command that changes nothing may be repeated any number of times. -/
theorem execTimes_of_fixed {i : Instr} (h : exec i s = .next s) (n : Nat) :
    execTimes i n s = .next s := by
  induction n with
  | zero => rfl
  | succ n ih => rw [execTimes, h, andThen_next, ih]

/-! ### The marks that reset alone clears (R232) -/

/-- Counting a dropped byte never lowers the counter: at its largest value it saturates (R27). -/
theorem ovfCount_le_countOverflow (s : State) :
    s.ovfCount.toNat ≤ s.countOverflow.ovfCount.toNat := by
  rw [countOverflow_eq, State.setOvfCount_ovfCount]
  split_ifs with hcounts
  · obtain ⟨-, hne⟩ : _ ∧ s.ovfCount ≠ 0xFFFFFFFF#32 := by simpa using hcounts
    bv_omega
  · exact le_rfl

theorem execRbStore_ovfCount_le {c : Byte} (h : execRbStore c s = .next t) :
    s.ovfCount.toNat ≤ t.ovfCount.toNat := by
  unfold execRbStore at h
  dsimp only at h
  split_ifs at h
  · cases h
    exact ovfCount_le_countOverflow s.beginCommand
  · obtain ⟨u, hu, hk⟩ := andThen_eq_next.mp h
    obtain ⟨-, rfl⟩ := memWrite_eq_next.mp hu
    cases hk
    exact le_rfl

/-- A command counts up at most, and leaves the sticky mark to the step (R202). -/
theorem exec_keepsMarks {i : Instr} (h : exec i s = .next t) :
    s.ovfCount.toNat ≤ t.ovfCount.toNat ∧ t.refused = s.refused := by
  obtain ⟨howned, -, -, -, -, -, -, -, hrefused, -⟩ := fieldOwnership i s t h
  refine ⟨?_, hrefused⟩
  by_cases hsame : t.ovfCount = s.ovfCount
  · rw [hsame]
  · obtain ⟨c, rfl⟩ := howned (.inr (.inr hsame))
    exact execRbStore_ovfCount_le h

/-- So does a word on a port, where a refusal sets the mark. -/
theorem runCommand_keepsMarks {port : Port} {w : CommandWord} (h : runCommand port w s = .next t) :
    s.ovfCount.toNat ≤ t.ovfCount.toNat ∧ (s.refused = true → t.refused = true) := by
  unfold runCommand at h
  split at h
  · cases h
    exact ⟨le_rfl, fun _ => rfl⟩
  · obtain hnext | ⟨reason, -, rfl⟩ := settle_eq_next h
    · obtain ⟨hle, hrefused⟩ := exec_keepsMarks hnext
      exact ⟨hle, hrefused.trans⟩
    · exact ⟨le_rfl, fun _ => rfl⟩

theorem step_keepsMarks (h : step s = .next t)
    (hno : ∀ contents, s.inbox.head? ≠ some (.reset contents)) :
    s.ovfCount.toNat ≤ t.ovfCount.toNat ∧ (s.refused = true → t.refused = true) := by
  obtain ⟨-, rfl⟩ | ⟨e, rest, hi, he⟩ := step_eq_next h
  · exact ⟨le_rfl, id⟩
  · cases e with
    | command port w => exact runCommand_keepsMarks (s := s.setInbox rest) he
    | reset contents => exact absurd (congrArg List.head? hi) (hno contents)

/-- A step that takes a reset leaves the state that the reset input does (R230). -/
theorem step_of_reset {contents : List Byte} (h : step s = .next t)
    (hi : s.inbox.head? = some (.reset contents)) :
    ∃ rest, t = (s.setInbox rest).assertReset contents := by
  obtain ⟨rest, hi⟩ := List.head?_eq_some_iff.mp hi
  rw [step_event (configOk_of_step h) hi] at h
  exact ⟨rest, (Host.Outcome.next.inj h).symm⟩

/-! ### The room for stores (R242) -/

/-- Stores for which there is room drop no byte and so count none: the counter, where there is one, adds
the bytes beyond the room (R27). -/
theorem storeAll_ovfCount_of_room {bytes : List Byte} (h : s.Inv)
    (hroom : bytes.length ≤ s.cfg.cap - 1 - s.avail) (hu : storeAll bytes s = .next u) :
    u.ovfCount = s.ovfCount := by
  cases hpresent : s.cfg.hasOvfCounter with
  | false =>
    obtain ⟨v, hv, hext⟩ := storeAll_extends bytes h
    obtain rfl : v = u := Host.Outcome.next.inj (hv.symm.trans hu)
    rw [h.ovfCount_absent hpresent, hext.inv.ovfCount_absent (hext.cfg_eq ▸ hpresent)]
  | true =>
    have hle := h.avail_le
    have hdrops : s.avail + bytes.length - (s.cfg.cap - 1) = 0 := by omega
    have hcount := storeAll_ovfCount h hpresent hu (by rw [hdrops]; exact s.ovfCount.isLt)
    exact BitVec.eq_of_toNat_eq (by rw [hcount, hdrops, Nat.add_zero])

/-- Stores for which there is room all join the queue (R101). -/
theorem storeAll_buffered_of_room {bytes : List Byte} (h : s.Inv)
    (hroom : bytes.length ≤ s.cfg.cap - 1 - s.avail) (hu : storeAll bytes s = .next u) :
    u.buffered = s.buffered ++ bytes := by
  have hle := h.avail_le
  rw [storeAll_buffered h hu, List.take_of_length_le]
  rw [List.length_append, length_buffered]
  omega

/-- A store into a full buffer completes and leaves the queue as it is (R101). -/
theorem execRbStore_of_no_room (h : s.Inv) (hfull : s.cfg.cap - 1 ≤ s.avail) (c : Byte) :
    ∃ t, execRbStore c s = .next t ∧ t.buffered = s.buffered := by
  obtain ⟨t, ht, -⟩ := execRbStore_completes h c
  exact ⟨t, ht, by rw [execRbStore_buffered h ht, if_neg (Nat.not_lt.mpr hfull)]⟩

/-! ### The work of a timer event (R241) -/

/-- An end check adds at most one pin-layer call, a toggle of the cached pin (R166). -/
theorem endCheck_pinCalls (h : endCheck s = .next t) :
    t.pinCalls = s.pinCalls ∨ t.pinCalls = s.pinCalls ++ [.toggle s.outPort s.outMask] := by
  by_cases h0 : s.tc = 0#64
  · rw [endCheck_of_zero h0] at h
    cases h
    exact .inl rfl
  · rw [endCheck_of_ne h0 (endCheck_port_lt h h0)] at h
    cases h
    exact .inr rfl

/-- The outputs of a timer command: no response, and at most one call, a toggle of the cached pin. -/
theorem exec_timer_outputs {c : TimerCommand} (h : exec c.instr s = .next t) :
    (t.pinCalls = [] ∨ t.pinCalls = [.toggle s.outPort s.outMask]) ∧ t.response = none := by
  obtain ⟨-, hend⟩ | ⟨-, rfl⟩ | ⟨-, n, rfl⟩ := exec_timer_eq_next h
  · rw [reload_eq] at hend
    exact ⟨endCheck_pinCalls hend, by rw [endCheck_eq_next hend]; rfl⟩
  · rw [bookkeepingFiring_eq]
    exact ⟨.inl rfl, rfl⟩
  · exact ⟨.inl rfl, rfl⟩

/-- The counter restarts on a match, and else counts one tick (R160, R162). -/
theorem exec_timer_tcnt {c : TimerCommand} (h : exec c.instr s = .next t) :
    t.tcnt = 0 ∨ t.tcnt = (s.tcnt + 1) % 2 ^ s.cfg.cmpWidth := by
  cases hm : s.matchesOn c with
  | true => exact .inl (execTmrMatch_tcnt ((exec_timer_of_matchesOn hm).symm.trans h))
  | false =>
    cases c with
    | compare => cases hm
    | tick =>
      have hcounts : exec .tmrTick s = .next t := h
      rw [execTmrTick_of_ne (beq_eq_false_iff_ne.mp hm)] at hcounts
      cases hcounts
      exact .inr rfl

/-- Outputs apart, a timer command writes the registers of a compare-match alone (R42). -/
theorem exec_timer_quiet_frame {c : TimerCommand} (h : exec c.instr s = .next t) :
    t.quiet = (s.withTimer t).quiet := by
  cases c <;> exact congrArg State.quiet (exec_frame h)

end

/-- Settles O14: the commands on the empty buffer, and the tick that matches and is discarded. -/
theorem stateAfterReset : Obligations.StateAfterReset := by
  rintro cfg contents portOut portDir hc ho hd s rfl
  have hinv := powerUp_inv hc (Memory.wf_ofBytes contents cfg.cap) ho hd
  have hempty := powerUp_empty cfg (Memory.ofBytes 0 (contents.take cfg.cap)) portOut portDir
  exact ⟨(availOf_eq_zero_iff hinv.head_lt hinv.tail_lt).mpr hempty, execRbPeek_of_empty hempty,
    execRbRead_of_empty hempty, toneFsm_of_free rfl rfl, rfl, rfl, rfl,
    execTimes_of_fixed (execTmrTick_of_parked rfl rfl rfl), fun _ => rfl, hinv⟩

/-- Settles O16: the step without a reset, the flush, and the step that takes a reset. -/
theorem onlyResetClearsMarks : Obligations.OnlyResetClearsMarks := by
  refine ⟨fun _ _ => step_keepsMarks, fun s t h => ?_, fun s t contents h hi => ?_⟩
  · rw [exec_frame h]
    rfl
  · obtain ⟨rest, rfl⟩ := step_of_reset h hi
    exact ⟨rfl, rfl⟩

/-- Settles O27: a list of stores is a window of receive events, which ends with a full buffer when it
takes up all the room. -/
theorem noLossWithinRoom : Obligations.NoLossWithinRoom := by
  intro s bytes h hroom
  obtain ⟨t, ht, hext⟩ := storeAll_extends bytes h
  have hbuffered := storeAll_buffered_of_room h hroom ht
  refine ⟨t, (execAll_rbStore bytes s).trans ht, hbuffered, storeAll_ovfCount_of_room h hroom ht,
    fun hall c => execRbStore_of_no_room hext.inv ?_ c⟩
  rw [hext.cfg_eq, ← length_buffered, hbuffered, List.length_append, length_buffered]
  omega

/-- Settles O48: the outputs, the frame and the counter of a timer command. -/
theorem handlerWorkBounded : Obligations.HandlerWorkBounded := by
  intro s t c h
  obtain ⟨hcalls, hresponse⟩ := exec_timer_outputs h
  exact ⟨hcalls, hresponse, exec_timer_quiet_frame h, exec_timer_tcnt h⟩

/-- Settles O13: the step that takes the reset, and the idle one. -/
theorem resetInputLoadsResetValues : Obligations.ResetInputLoadsResetValues :=
  ⟨fun s contents _ hc hi =>
    ⟨Memory.ofBytes 0 (contents.take s.cfg.cap), step_event hc hi⟩, fun _ => step_idle⟩

end Sys2Proof.Machine
